-- ==== Sys2Proof/Word.lean ====
section
/-!
DEFINITION. The words, bytes and pixels the block's registers, memories and data formats are made of
(00_scope R8 to R10).
-/

namespace Sys2Proof

/-- A register, a command word or an `IMG` cell: 32 bits (00_scope R7, `REG_WIDTH`). -/
abbrev Word := BitVec 32

/-- A byte of `BUF`, a colour channel or a palette index: the spec's `u8` (00_scope R10). -/
abbrev Byte := BitVec 8

/-- A packed 16-bit colour code, the spec's `Color16` (30_encoding R104). -/
abbrev Color16 := BitVec 16

/-- One pixel of four 8-bit channels (00_scope R10). `a = 255` is opaque, `a = 0` fully transparent. -/
structure RGBA where
  r : Byte
  g : Byte
  b : Byte
  a : Byte
deriving DecidableEq, Repr

/-- The formats that have palette pages: codes 0 and 1 (30_encoding R106). -/
inductive IndexedFormat where
  | indexed4
  | indexed8
deriving DecidableEq, Repr

/-- The formats `PACK` encodes: codes 0, 1 and 2 (42_pixel_plane R190). -/
inductive EncodeFormat where
  | indexed (f : IndexedFormat)
  | direct15
deriving DecidableEq, Repr

/-- The formats that have a plane layout: codes 0 to 3 (30_encoding R106, 42_pixel_plane R181 to R184). -/
inductive PlaneFormat where
  | indexed (f : IndexedFormat)
  | direct15
  | direct24
deriving DecidableEq, Repr

/-- What a 3-bit format code says: a format with a plane layout, `Mixed` (code 4), or one of the
invalid codes 5 to 7 (30_encoding R106). -/
inductive Format where
  | plane (f : PlaneFormat)
  | mixed
  | invalid
deriving DecidableEq, Repr

end Sys2Proof
end

