-- ==== Sys2Proof/Config.lean ====
section
/-!
DEFINITION. What an instance of the block fixes (00_scope R7), and the free values: constants without a
body for what the spec leaves without a value (93_implementation_defined U1).
-/

namespace Sys2Proof

/-- The three OPEN parameters of an instance (00_scope R7, 92_eei_decisions section 2).
DESIGN CHOICE: a state carries its instance's parameters, so that a statement about every state is a
statement about every instance (log entry 4, safe). -/
structure Params where
  /-- `BUF_SIZE`, bytes of `BUF`. -/
  bufSize : Nat
  /-- `IMG_SIZE`, cells of `IMG`. -/
  imgSize : Nat
  /-- `CLUT_MAX`, cells of the CLUT RAM. -/
  clutMax : Nat
deriving DecidableEq, Repr

/-- The ranges 00_scope R7 gives the parameters. -/
abbrev Params.wf (p : Params) : Prop :=
  p.bufSize ≤ 2 ^ 32 ∧ p.imgSize ≤ 2 ^ 32 ∧
    p.clutMax % 256 = 0 ∧ 256 ≤ p.clutMax ∧ p.clutMax ≤ 2 ^ 31

/-- The instance of 95_test_vectors ("`BUF_SIZE = 0x1000`, `IMG_SIZE = 0x100`, `CLUT_MAX = 65536`").
DESIGN CHOICE: the instance `State.reset` stands for (log entry 4, unsafe for a claim about reset alone). -/
def Config.defaultParams : Params := { bufSize := 0x1000, imgSize := 0x100, clutMax := 65536 }

/-- The value of a `BUF` byte that nothing has written since power-up or since the `epoch`-th reset
event: a free draw per cell, fixed once drawn (93_implementation_defined U1, 70_reset_and_hazards R322).
DESIGN CHOICE: a draw rather than a model fault (log entry 5, safe). -/
opaque Config.powerOnByte (epoch address : Nat) : Byte

/-- The same for an `IMG` cell (93_implementation_defined U1; log entry 6, safe). -/
opaque Config.powerOnPixel (epoch index : Nat) : Word

/-- The content of CLUT RAM cell `index` where the cell holds no defined entry (10_state R53, R56): never
read by a rule in a state a run can reach (log entry 7, safe). -/
opaque Config.undefinedClutEntry (index : Nat) : Color16

end Sys2Proof
end

