-- ==== Sys2Proof/Syntax.lean ====
section
/-!
DEFINITION. The thirteen commands (30_encoding R102) and the host actions a program is made of
(30_encoding R115).
-/

namespace Sys2Proof

/-- A command of the block: one constructor per row of the opcode map (30_encoding R102). No command
word carries an operand (R103), so no constructor does. -/
inductive Instr where
  | nop
  | dec16
  | enc16
  | clutld
  | split
  | pagerd
  | clutst
  | parse
  | geom
  | unpack
  | pack
  | qclr
  | qmatch
deriving DecidableEq, Repr

/-- What the host can do to the block between commands (30_encoding R115, 60_exceptions R302), and the
reset event of 70_reset_and_hazards R320, which the platform asserts. Register accesses are whole 32-bit
words by construction: 93_implementation_defined U2 gives a narrower one no meaning (log entry 13). -/
inductive HostAction where
  /-- `WR`: write a register at a byte offset from the base of the register block. -/
  | writeReg (offset : Nat) (value : Word)
  /-- `RD`: read a register. -/
  | readReg (offset : Nat)
  /-- `BUFW`: write consecutive bytes of `BUF`. -/
  | writeBuf (address : Nat) (bytes : List Byte)
  /-- `BUFR`: read consecutive bytes of `BUF`. -/
  | readBuf (address count : Nat)
  /-- `IMGW`: write consecutive cells of `IMG`. -/
  | writeImg (index : Nat) (pixels : List Word)
  /-- `IMGR`: read consecutive cells of `IMG`. -/
  | readImg (index count : Nat)
  /-- The reset event. -/
  | reset
deriving DecidableEq, Repr

end Sys2Proof
end

