-- ==== Sys2Proof/WellFormed.lean ====
section
/-!
DEFINITION. The checks on what reaches the block from outside: command words (30_encoding R100, R101),
host actions (20_memory R73, 10_state R47) and instance parameters (`Params.wf`, in Config.lean).
-/

namespace Sys2Proof

/-- Every command is well formed: format `C` has no operand field that could hold a bad value
(30_encoding R100, R103). -/
def Instr.wellFormed : Instr → Bool
  | .nop | .dec16 | .enc16 | .clutld | .split | .pagerd | .clutst | .parse | .geom | .unpack | .pack
  | .qclr | .qmatch => true

/-- The `ZERO` field of a command word is 0 (30_encoding R100). -/
def CommandWord.zeroFieldOk (w : Word) : Bool := w.extractLsb' 8 24 = 0

/-- The `OPC` field of a command word is one of the thirteen opcodes (30_encoding R102). -/
def CommandWord.opcodeOk (w : Word) : Bool :=
  [0x00, 0x01, 0x02, 0x10, 0x11, 0x12, 0x13, 0x20, 0x21, 0x30, 0x31, 0x40, 0x41].contains
    (w.toNat % 256)

/-- A word is a command (30_encoding R101). -/
def CommandWord.wellFormed (w : Word) : Bool := CommandWord.zeroFieldOk w && CommandWord.opcodeOk w

/-- A register access names a word of the 256-byte register block (20_memory R73, 10_state R47); a
`BUF` or `IMG` access names cells the instance has (10_state R51, R52). -/
def HostAction.wellFormed (p : Params) : HostAction → Bool
  | .writeReg offset _ => offset % 4 = 0 && offset < 0x100
  | .readReg offset => offset % 4 = 0 && offset < 0x100
  | .writeBuf address bytes => bytes.length = 0 || address + bytes.length ≤ p.bufSize
  | .readBuf address count => count = 0 || address + count ≤ p.bufSize
  | .writeImg index pixels => pixels.length = 0 || index + pixels.length ≤ p.imgSize
  | .readImg index count => count = 0 || index + count ≤ p.imgSize
  | .reset => true

end Sys2Proof
end

