-- ==== Sys2Proof/Decode.lean ====
section
/-!
DEFINITION. From a command word to a command and back (30_encoding R100 to R102). The decoder is total
on 32-bit words and refuses by name; the encoder is written from the same opcode map.
-/

namespace Sys2Proof

/-- Why a word is no command (30_encoding R101). Both make the block take `IllegalCommand`. -/
inductive DecodeError where
  /-- Bits 31:8 are not all 0. -/
  | zeroField
  /-- Bits 7:0 are none of the thirteen opcodes. -/
  | opcode
deriving DecidableEq, Repr

/-- The opcode map, read by opcode (30_encoding R102). -/
def decodeOpcode (opc : Byte) : Except DecodeError Instr :=
  if opc = 0x00 then .ok .nop
  else if opc = 0x01 then .ok .dec16
  else if opc = 0x02 then .ok .enc16
  else if opc = 0x10 then .ok .clutld
  else if opc = 0x11 then .ok .split
  else if opc = 0x12 then .ok .pagerd
  else if opc = 0x13 then .ok .clutst
  else if opc = 0x20 then .ok .parse
  else if opc = 0x21 then .ok .geom
  else if opc = 0x30 then .ok .unpack
  else if opc = 0x31 then .ok .pack
  else if opc = 0x40 then .ok .qclr
  else if opc = 0x41 then .ok .qmatch
  else .error .opcode

/-- What the sequencer makes of a word written to `CMD` (30_encoding R101): first the `ZERO` field, then
the opcode. -/
def decode (w : Word) : Except DecodeError Instr :=
  if w.extractLsb' 8 24 = 0 then decodeOpcode (w.extractLsb' 0 8) else .error .zeroField

/-- The opcode map, read by command (30_encoding R102). -/
def opcodeOf : Instr → Byte
  | .nop => 0x00
  | .dec16 => 0x01
  | .enc16 => 0x02
  | .clutld => 0x10
  | .split => 0x11
  | .pagerd => 0x12
  | .clutst => 0x13
  | .parse => 0x20
  | .geom => 0x21
  | .unpack => 0x30
  | .pack => 0x31
  | .qclr => 0x40
  | .qmatch => 0x41

/-- The command word of a command: `OPC` in bits 7:0, zeros above (30_encoding R100). -/
def encode (i : Instr) : Word := (0 : BitVec 24) ++ opcodeOf i

/-- The 32-bit word of an opcode-table row's bits: a command word is the data of one bus write, so it has
no byte order (20_memory R86). `none` where the bits do not fit a command word. -/
def tableWord (nbits w : Nat) : Option Word :=
  if w % 2 ^ nbits < 2 ^ 32 then some (BitVec.ofNat 32 (w % 2 ^ nbits)) else none

/-- The command the decoder reads from an opcode-table row's bits, `none` where it refuses. -/
def decodeTableWord (nbits w : Nat) : Option Instr :=
  match tableWord nbits w with
  | none => none
  | some word =>
    match decode word with
    | .ok i => some i
    | .error _ => none

end Sys2Proof
end

