-- ==== Sys2Proof/Machine/State.lean ====
section
/-!
DEFINITION. The state of one block (10_state R20 to R57), the kinds of fault it takes (60_exceptions
R280), and the reasons the MODEL stops. Everything is plain data.
-/

namespace Sys2Proof.Machine

/-- The block's faults, in the order of their codes 1 to 11 (60_exceptions R280). A command that takes
one goes on to a next state (R286): none of these stops the model. -/
inductive ErrorKind where
  | invalidMagic
  | invalidFormat
  | invalidClutSize
  | unsupportedFormat
  | truncatedInput
  | geometryMismatch
  | pageRange
  | destRange
  | clutCapacity
  | oddWidth
  | illegalCommand
deriving DecidableEq, Repr

/-- Why a step of the model stops: only on a host access to a cell the spec says does not exist. -/
inductive Fault where
  /-- Raised by the host actions `writeBuf` and `readBuf` outside `BUF` (10_state R51 gives addresses
  `0 .. BUF_SIZE-1`). Safe: nothing follows it (log entry 11). -/
  | bufAddressAbsent
  /-- Raised by the host actions `writeImg` and `readImg` outside `IMG` (10_state R52). Safe (log entry 11). -/
  | imgIndexAbsent
deriving DecidableEq, Repr

/-- What the model gives no meaning to. -/
inductive Refusal where
  /-- An instruction without a meaning yet, by its mnemonic. No arm answers with it. Safe. -/
  | notModelled (mnemonic : String)
  /-- Raised by a host register access at an offset that is no multiple of 4
  (93_implementation_defined U2: "`refuse`"). Safe (log entry 12). -/
  | misalignedRegisterOffset
  /-- Raised by a host register access at offset `0x100` or above (93_implementation_defined U7:
  "`refuse`: not part of the block"). Safe (log entry 12). -/
  | beyondRegisterBlock
deriving DecidableEq, Repr

/-- What a read gave the host (60_exceptions R302, "collect"). -/
inductive Reply where
  | register (value : Word)
  | bytes (values : List Byte)
  | pixels (values : List Word)
deriving DecidableEq, Repr

/-- The cells of an array that have been written, as (address, content) pairs with strictly rising
addresses. What an unlisted cell reads as is said by the reader: a free draw for `BUF` and `IMG`
(93_implementation_defined U1), `none` for the cache (10_state R54). -/
abbrev Memory (w : Nat) := List (Nat × BitVec w)

/-- The canonical form: addresses strictly rising. No entry can equal what an unlisted cell reads as,
since an unlisted cell holds no value of its own (log entry 9). -/
abbrev Memory.wf {w : Nat} (m : Memory w) : Prop := m.Pairwise (fun x y => x.1 < y.1)

/-- The state of one block. The first four fields are the MODEL's own; the rest is 10_state R20: the
25 stored registers of R57, `BUF`, `IMG`, the defined cells of the CLUT RAM, and the cache. -/
structure State where
  /-- MODEL: the instance's constants (00_scope R7), changed by no step. -/
  params : Params
  /-- MODEL: host actions issued and not yet performed, oldest first (20_memory R83). -/
  pending : List HostAction
  /-- MODEL: what the host's reads returned, newest first. -/
  replies : List Reply
  /-- MODEL: number of reset events so far; selects the free draws of unwritten memory. -/
  epoch : Nat
  /-- `CMD`, offset `0x00` (R24). -/
  cmd : Word
  /-- `STATUS`, offset `0x04` (R25). -/
  status : Word
  /-- `CTRL`, offset `0x08` (R26). -/
  ctrl : Word
  /-- `MODE`, offset `0x0C` (R27). -/
  mode : Word
  /-- `OPA`, offset `0x10` (R28). -/
  opa : Word
  /-- `RES`, offset `0x14` (R29). -/
  res : Word
  /-- `SPOS`, offset `0x18` (R30). -/
  spos : Word
  /-- `SLEN`, offset `0x1C` (R31). -/
  slen : Word
  /-- `PALOFF`, offset `0x20` (R32). -/
  paloff : Word
  /-- `CLUTN`, offset `0x24` (R33). -/
  clutn : Word
  /-- `CLEN`, offset `0x28` (R34). -/
  clen : Word
  /-- `PAGE`, offset `0x30` (R35). -/
  page : Word
  /-- `CLUTRECT_XY`, offset `0x38` (R36). -/
  clutrectXY : Word
  /-- `CLUTRECT_WH`, offset `0x3C` (R36). -/
  clutrectWH : Word
  /-- `PIXRECT_XY`, offset `0x40` (R38). -/
  pixrectXY : Word
  /-- `PIXRECT_WH`, offset `0x44` (R39). -/
  pixrectWH : Word
  /-- `CLUTSIZE`, offset `0x48` (R37). -/
  clutsize : Word
  /-- `PIXSIZE`, offset `0x4C` (R40). -/
  pixsize : Word
  /-- `TRUEW`, offset `0x50` (R41). -/
  truew : Word
  /-- `PIXOFF`, offset `0x5C` (R42). -/
  pixoff : Word
  /-- `IMGBASE`, offset `0x60` (R43). -/
  imgbase : Word
  /-- `IMGW`, offset `0x64` (R44). -/
  imgw : Word
  /-- `IMGH`, offset `0x68` (R44). -/
  imgh : Word
  /-- `DST`, offset `0x6C` (R45). -/
  dst : Word
  /-- `QCNT`, offset `0x70` (R46). -/
  qcnt : Word
  /-- `BUF` (R51): the bytes written so far. -/
  buf : Memory 8
  /-- `IMG` (R52): the cells written so far, each an `RGBA` word (30_encoding R105). -/
  img : Memory 32
  /-- `Clut` (R53): the defined cells, in storage order. -/
  clut : List Color16
  /-- `Cache` (R54): the filled cells, by key. -/
  cache : Memory 8
deriving DecidableEq, Repr

/-- An instance of the given sizes right after reset (10_state R56, 70_reset_and_hazards R320): every
register 0, the cache empty, the memories with unspecified contents, which is no cell listed. No host
action is pending: reset executes no command. -/
def State.resetWith (p : Params) : State :=
  { params := p, pending := [], replies := [], epoch := 0
    cmd := 0, status := 0, ctrl := 0, mode := 0, opa := 0, res := 0, spos := 0, slen := 0
    paloff := 0, clutn := 0, clen := 0, page := 0, clutrectXY := 0, clutrectWH := 0
    pixrectXY := 0, pixrectWH := 0, clutsize := 0, pixsize := 0, truew := 0, pixoff := 0
    imgbase := 0, imgw := 0, imgh := 0, dst := 0, qcnt := 0
    buf := [], img := [], clut := [], cache := [] }

/-- The machine right after reset, on the instance of the test vectors (log entry 4). -/
def State.reset : State := State.resetWith Config.defaultParams

end Sys2Proof.Machine
end

