-- ==== Sys2Proof/Machine/Flags.lean ====
section
/-!
DEFINITION. The status register (10_state R23, R25) and the fault codes (60_exceptions R280). `HIT` is
the block's only flag: no arithmetic of the block can overflow or carry (40_color_codec R136).
-/

namespace Sys2Proof.Machine

/-- The number of a fault kind (60_exceptions R280). -/
def ErrorKind.code : ErrorKind → Nat
  | .invalidMagic => 1
  | .invalidFormat => 2
  | .invalidClutSize => 3
  | .unsupportedFormat => 4
  | .truncatedInput => 5
  | .geometryMismatch => 6
  | .pageRange => 7
  | .destRange => 8
  | .clutCapacity => 9
  | .oddWidth => 10
  | .illegalCommand => 11

/-- The `STATUS` word of a command that completed: `ERR = 0`, `HIT` as given (10_state R25). -/
def statusCompleted (hit : Bool) : Word := if hit then 0x100 else 0

/-- The `STATUS` word of a command that faulted: its code, `HIT = 0` (60_exceptions R286). -/
def statusFaulted (e : ErrorKind) : Word := BitVec.ofNat 32 e.code

/-- `STATUS.ERR` (10_state R25). -/
def State.statusErr (s : State) : Byte := s.status.extractLsb' 0 8

/-- `STATUS.HIT` (10_state R23, R25). -/
def State.statusHit (s : State) : Bool := s.status.getLsbD 8

end Sys2Proof.Machine
end

