-- ==== Sys2Proof/Machine/Ops.lean ====
section
/-!
DEFINITION. The named operations over the memories and the registers, and taking a fault (60_exceptions
R286), with the ordinary completion of a command beside it (44_structure_and_control R250). There is no
return from a fault (60_exceptions R295): the next command is an ordinary one.
-/

namespace Sys2Proof.Machine

/-! ## Memories -/

/-- The content of a cell, `none` where it is not listed. -/
def Memory.lookup {w : Nat} : Memory w → Nat → Option (BitVec w)
  | [], _ => none
  | (k, v) :: m, a => if a = k then some v else Memory.lookup m a

/-- Write one cell, keeping the addresses rising. -/
def Memory.store {w : Nat} : Memory w → Nat → BitVec w → Memory w
  | [], a, x => [(a, x)]
  | (k, v) :: m, a, x =>
    if a < k then (a, x) :: (k, v) :: m
    else if a = k then (a, x) :: m
    else (k, v) :: Memory.store m a x

/-- Write consecutive cells from address `a` up. -/
def Memory.storeRun {w : Nat} : Memory w → Nat → List (BitVec w) → Memory w
  | m, _, [] => m
  | m, a, x :: xs => Memory.storeRun (Memory.store m a x) (a + 1) xs

/-- The unsigned integer of bytes at ascending addresses, lowest first (20_memory R71). -/
def bytesToNat : List Byte → Nat
  | [] => 0
  | b :: bs => b.toNat + 256 * bytesToNat bs

/-- The `n` low bytes of `v`, lowest first (00_scope R11 `BufWrite`, 20_memory R71). -/
def natToBytes : Nat → Nat → List Byte
  | 0, _ => []
  | n + 1, v => BitVec.ofNat 8 v :: natToBytes n (v / 256)

/-- `BUF[a]`. A byte nothing has written is a free draw (93_implementation_defined U1, log entry 5). -/
def State.bufByte (s : State) (a : Nat) : Byte :=
  (Memory.lookup s.buf a).getD (Config.powerOnByte s.epoch a)

/-- `IMG[i]` as a word (30_encoding R105). A cell nothing has written is a free draw
(93_implementation_defined U1, log entry 6). -/
def State.imgCell (s : State) (i : Nat) : Word :=
  (Memory.lookup s.img i).getD (Config.powerOnPixel s.epoch i)

/-- `Clut[i]` (00_scope R11). A cell without a defined entry is a free draw, and no rule reads one
(10_state R53, log entry 7). -/
def State.clutEntry (s : State) (i : Nat) : Color16 :=
  (s.clut[i]?).getD (Config.undefinedClutEntry i)

/-- `Cache[k]` (10_state R54): an unlisted cell is `none`. -/
def State.cacheCell (s : State) (k : Color16) : Option Byte := Memory.lookup s.cache k.toNat

/-- The bytes `BUF[a .. a + n - 1]`. -/
def State.bufBytes (s : State) : Nat → Nat → List Byte
  | _, 0 => []
  | a, n + 1 => s.bufByte a :: s.bufBytes (a + 1) n

/-- `BufRead(a, n)` (00_scope R11): the little-endian integer of `n` bytes. -/
def State.bufRead (s : State) (a n : Nat) : Nat := bytesToNat (s.bufBytes a n)

/-- The cells `IMG[i .. i + n - 1]`. -/
def State.imgCells (s : State) : Nat → Nat → List Word
  | _, 0 => []
  | i, n + 1 => s.imgCell i :: s.imgCells (i + 1) n

/-- `n` raw CLUT entries from `BUF[a]`, two bytes each (30_encoding R109). -/
def State.bufEntries (s : State) : Nat → Nat → List Color16
  | _, 0 => []
  | a, n + 1 => BitVec.ofNat 16 (s.bufRead a 2) :: s.bufEntries (a + 2) n

/-- The raw CLUT entries `Clut[k .. k + n - 1]`. -/
def State.clutEntries (s : State) : Nat → Nat → List Color16
  | _, 0 => []
  | k, n + 1 => s.clutEntry k :: s.clutEntries (k + 1) n

/-- Write consecutive bytes of `BUF`. -/
def State.writeBuf (s : State) (a : Nat) (bytes : List Byte) : State :=
  { s with buf := Memory.storeRun s.buf a bytes }

/-- Write consecutive cells of `IMG`. -/
def State.writeImg (s : State) (i : Nat) (pixels : List Word) : State :=
  { s with img := Memory.storeRun s.img i pixels }

/-- Replace the defined part of the CLUT RAM and `CLEN` (10_state R34, R53). -/
def State.loadClut (s : State) (entries : List Color16) : State :=
  { s with clut := entries, clen := BitVec.ofNat 32 entries.length }

/-- `Cache <- all none ; QCNT <- 0` (43_quantizer R222). -/
def State.clearCache (s : State) : State := { s with cache := [], qcnt := 0 }

/-- `Cache[k] <- some i ; QCNT <- QCNT + 1` (43_quantizer R224 step 4). -/
def State.fillCache (s : State) (k : Color16) (i : Byte) : State :=
  { s with cache := Memory.store s.cache k.toNat i, qcnt := s.qcnt + 1 }

/-! ## Registers -/

/-- `STATUS <- v`. -/
def State.setStatus (s : State) (v : Word) : State := { s with status := v }

/-- `RES <- v`. -/
def State.setRes (s : State) (v : Word) : State := { s with res := v }

/-- `TRUEW <- w` (10_state R41). -/
def State.setTrueWidth (s : State) (w : Nat) : State := { s with truew := BitVec.ofNat 32 w }

/-- `IMGW <- w ; IMGH <- h` (10_state R44). -/
def State.setImageSize (s : State) (w h : Nat) : State :=
  { s with imgw := BitVec.ofNat 32 w, imgh := BitVec.ofNat 32 h }

/-- The two 16-bit fields of a rect register, low half first (10_state R36, R38, R39). -/
def packHalves (lo hi : Nat) : Word := BitVec.ofNat 32 lo ||| (BitVec.ofNat 32 hi <<< 16)

/-! ## How a command ends -/

/-- Raise a fault of the named kind unless the check holds (00_scope R11). -/
def require (check : Bool) (e : ErrorKind) : Except ErrorKind Unit :=
  if check then .ok () else .error e

/-- Fault entry (60_exceptions R286): of everything the command would have written nothing is kept;
`STATUS.ERR` takes the code and `STATUS.HIT` is cleared. Nothing else is recorded (R293), and control
goes nowhere. -/
def takeFault (e : ErrorKind) (s : State) : State := s.setStatus (statusFaulted e)

/-- The last write of a command that completed: `STATUS <- 0` (44_structure_and_control R250). -/
def complete (s : State) : State := s.setStatus (statusCompleted false)

/-- How a command started in `s` ends (44_structure_and_control R250): with all its writes, or, where it
raised a fault, with none of them and the fault taken. -/
def conclude (s : State) : Except ErrorKind State → Host.Outcome State Fault Refusal
  | .ok t => .next t
  | .error e => .next (takeFault e s)

/-- The reset event (70_reset_and_hazards R320): the machine after reset, on the same instance and the
same host. The memories' contents are unspecified again, so the free draws are those of a new epoch
(log entry 8). -/
def resetEvent (s : State) : State :=
  { State.resetWith s.params with
    pending := s.pending, replies := s.replies, epoch := s.epoch + 1 }

end Sys2Proof.Machine
end

