-- ==== Sys2Proof/Machine/Operands.lean ====
section
/-!
DEFINITION. The operands of the commands, all taken from named registers (30_encoding R103), the word form
of a pixel (R105), the format codes (R106), and the range checks (20_memory R76 to R78).
-/

namespace Sys2Proof

/-- What a format code says (30_encoding R106; the numbering of codes 0 to 3 is 91_not_in_source N5,
log entry 14). -/
def Format.ofCode (code : BitVec 3) : Format :=
  if code = 0 then .plane (.indexed .indexed4)
  else if code = 1 then .plane (.indexed .indexed8)
  else if code = 2 then .plane .direct15
  else if code = 3 then .plane .direct24
  else if code = 4 then .mixed
  else .invalid

/-- The plane format an encodable format encodes to. -/
def EncodeFormat.plane : EncodeFormat → PlaneFormat
  | .indexed f => .indexed f
  | .direct15 => .direct15

/-- `word()`: a pixel as a 32-bit word, `R` lowest, `A` highest (30_encoding R105). -/
def RGBA.word (px : RGBA) : Word := px.a ++ px.b ++ px.g ++ px.r

/-- `rgba()`: the pixel a 32-bit word holds (30_encoding R105). -/
def RGBA.ofWord (w : Word) : RGBA :=
  { r := w.extractLsb' 0 8, g := w.extractLsb' 8 8, b := w.extractLsb' 16 8, a := w.extractLsb' 24 8 }

end Sys2Proof

namespace Sys2Proof.Machine

/-- `CTRL.TE` (10_state R26). -/
def State.te (s : State) : Bool := s.ctrl.getLsbD 0

/-- `MODE.FORMAT` (10_state R27). -/
def State.formatCode (s : State) : BitVec 3 := s.mode.extractLsb' 0 3

/-- The format `MODE.FORMAT` names. -/
def State.format (s : State) : Format := Format.ofCode s.formatCode

/-- `OPA[15:0]` (30_encoding R103). -/
def State.opaCode (s : State) : Color16 := s.opa.extractLsb' 0 16

/-- `W`: `TRUEW[17:0]` (10_state R41), read as it stands.
DESIGN CHOICE: a host that changed `MODE` or the stored width and did not run `GEOM` again breaks a must of
60_exceptions R302, which gives such a run no step; the model gives it the step of 70_reset_and_hazards
R326, the old width with the new format (log entry 16, unsafe). -/
def State.planeWidth (s : State) : Nat := (s.truew.extractLsb' 0 18).toNat

/-- `H`: `PIXRECT_WH[31:16]` (10_state R39). -/
def State.planeHeight (s : State) : Nat := (s.pixrectWH.extractLsb' 16 16).toNat

/-- `SW`: `PIXRECT_WH[15:0]`, the stored width (10_state R39). -/
def State.storedWidth (s : State) : Nat := (s.pixrectWH.extractLsb' 0 16).toNat

/-- `N = W * H`, the pixel count (42_pixel_plane). -/
def State.pixelCount (s : State) : Nat := s.planeWidth * s.planeHeight

/-- `lim = min(SLEN, BUF_SIZE)`, the end of the stream (20_memory R76). -/
def State.streamLimit (s : State) : Nat := min s.slen.toNat s.params.bufSize

/-- A stream read of `n` bytes at `a` is admitted (20_memory R76). -/
def State.streamAdmitted (s : State) (a n : Nat) : Bool := n = 0 || a + n ≤ s.streamLimit

/-- A `BUF` write of `n` bytes at `a` is admitted (20_memory R77). -/
def State.bufAdmitted (s : State) (a n : Nat) : Bool := n = 0 || a + n ≤ s.params.bufSize

/-- An access of `n` cells of `IMG` at `i` is admitted (20_memory R78). -/
def State.imgAdmitted (s : State) (i n : Nat) : Bool := n = 0 || i + n ≤ s.params.imgSize

/-- The opening of every command that needs a plane layout: format validity, then format support
(60_exceptions R294, R282, R284). -/
def planeFormatOf : Format → Except ErrorKind PlaneFormat
  | .invalid => .error .invalidFormat
  | .mixed => .error .unsupportedFormat
  | .plane f => .ok f

end Sys2Proof.Machine
end

