-- ==== Sys2Proof/Machine/ColorCodec.lean ====
section
/-!
DEFINITION. The Color Codec: `DEC16` and `ENC16` (40_color_codec).
-/

namespace Sys2Proof.Machine

/-- A 5-bit field shifted up to fill 8 bits, zeros below (40_color_codec R130). -/
def expand5 (field : BitVec 5) : Byte := field.setWidth 8 <<< 3

/-- An 8-bit channel shifted down to 5 bits, truncating (40_color_codec R133). -/
def reduce5 (channel : Byte) : Color16 := (channel >>> 3).setWidth 16

/-- `decode16(c, te)` (40_color_codec R130, R132). -/
def decode16 (c : Color16) (te : Bool) : RGBA :=
  { r := expand5 (c.extractLsb' 0 5)
    g := expand5 (c.extractLsb' 5 5)
    b := expand5 (c.extractLsb' 10 5)
    a := if te && c = 0x0000 then 0 else 255 }

/-- `encode16(px)` (40_color_codec R133). -/
def encode16 (px : RGBA) : Color16 :=
  reduce5 px.r ||| (reduce5 px.g <<< 5) ||| (reduce5 px.b <<< 10) |||
    (if px.a = 255 then 0 else 0x8000)

/-- `DEC16` (40_color_codec R131). -/
def execDec16 (s : State) : Host.Outcome State Fault Refusal :=
  conclude s (.ok (complete (s.setRes (decode16 s.opaCode s.te).word)))

/-- `ENC16` (40_color_codec R134). -/
def execEnc16 (s : State) : Host.Outcome State Fault Refusal :=
  conclude s (.ok (complete (s.setRes ((encode16 (RGBA.ofWord s.opa)).setWidth 32))))

end Sys2Proof.Machine
end

