-- ==== Sys2Proof/Machine/Palette.lean ====
section
/-!
DEFINITION. The Palette Page Manager: the page views, `CLUTLD`, `SPLIT`, `PAGERD` and `CLUTST`
(41_palette_pages). Pages are views of the CLUT RAM and hold no state (10_state R55).
-/

namespace Sys2Proof

/-- `pageSize(f)`, defined for the two indexed formats (41_palette_pages R150). -/
def IndexedFormat.pageSize : IndexedFormat → Nat
  | .indexed4 => 16
  | .indexed8 => 256

end Sys2Proof

namespace Sys2Proof.Machine

/-- `pageCount`, for the page size of the format (41_palette_pages R152). -/
def State.pageCount (s : State) (f : IndexedFormat) : Nat := s.clen.toNat / f.pageSize

/-- The CLUT holds whole pages of the format (41_palette_pages R151, second half). -/
def State.wholePages (s : State) (f : IndexedFormat) : Bool := s.clen.toNat % f.pageSize = 0

/-- `pageEntry(p, i)` (41_palette_pages R153). -/
def State.pageEntry (s : State) (f : IndexedFormat) (p i : Nat) : RGBA :=
  decode16 (s.clutEntry (p * f.pageSize + i)) s.te

/-- `ptrans(p)`: the least index of a fully transparent entry (41_palette_pages R154). -/
def State.ptrans (s : State) (f : IndexedFormat) (p : Nat) : Option Nat :=
  (List.range f.pageSize).find? (fun i => (s.pageEntry f p i).a = 0)

/-- The page format of a command that uses pages: the first three checks of `checkPages`
(41_palette_pages R156). -/
def pageFormatOf : Format → Except ErrorKind IndexedFormat
  | .invalid => .error .invalidFormat
  | .mixed => .error .unsupportedFormat
  | .plane .direct15 => .error .unsupportedFormat
  | .plane .direct24 => .error .unsupportedFormat
  | .plane (.indexed f) => .ok f

/-- `checkPages` (41_palette_pages R156). -/
def State.checkPages (s : State) : Except ErrorKind IndexedFormat := do
  let f ← pageFormatOf s.format
  require (s.wholePages f) .invalidClutSize
  pure f

/-- `checkPage` (41_palette_pages R156). -/
def State.checkPage (s : State) : Except ErrorKind IndexedFormat := do
  let f ← s.checkPages
  require (s.page.toNat < s.pageCount f) .pageRange
  pure f

/-- The raw block of the CLUT as bytes, entry after entry, low byte first (30_encoding R109). -/
def entryBytes : List Color16 → List Byte
  | [] => []
  | c :: cs => natToBytes 2 c.toNat ++ entryBytes cs

/-- What `CLUTLD` does (41_palette_pages R155). -/
def clutld (s : State) : Except ErrorKind State := do
  let n := s.clutn.toNat
  require (n ≤ s.params.clutMax) .clutCapacity
  require (s.streamAdmitted s.paloff.toNat (2 * n)) .truncatedInput
  pure (complete ((s.loadClut (s.bufEntries s.paloff.toNat n)).clearCache))

/-- `CLUTLD`. -/
def execClutld (s : State) : Host.Outcome State Fault Refusal := conclude s (clutld s)

/-- What `SPLIT` does (41_palette_pages R157). -/
def split (s : State) : Except ErrorKind State := do
  let f ← s.checkPages
  pure (complete (s.setRes (BitVec.ofNat 32 (s.pageCount f))))

/-- `SPLIT`. -/
def execSplit (s : State) : Host.Outcome State Fault Refusal := conclude s (split s)

/-- What `PAGERD` does (41_palette_pages R159). All 32 bits of `OPA` are the index. -/
def pagerd (s : State) : Except ErrorKind State := do
  let f ← s.checkPage
  require (s.opa.toNat < f.pageSize) .pageRange
  pure (complete (s.setRes (s.pageEntry f s.page.toNat s.opa.toNat).word))

/-- `PAGERD`. -/
def execPagerd (s : State) : Host.Outcome State Fault Refusal := conclude s (pagerd s)

/-- What `CLUTST` does (41_palette_pages R161). -/
def clutst (s : State) : Except ErrorKind State := do
  let n := s.clen.toNat
  require (s.bufAdmitted s.dst.toNat (2 * n)) .destRange
  pure (complete (s.writeBuf s.dst.toNat (entryBytes (s.clutEntries 0 n))))

/-- `CLUTST`. -/
def execClutst (s : State) : Host.Outcome State Fault Refusal := conclude s (clutst s)

end Sys2Proof.Machine
end

