-- ==== Sys2Proof/Machine/Quantizer.lean ====
section
/-!
DEFINITION. The Quantizer and its cache: `QCLR` and `QMATCH` (43_quantizer).
-/

namespace Sys2Proof.Machine

/-- The absolute difference of two channels, in `0 .. 255` (43_quantizer R233). -/
def channelDistance (x y : Byte) : Nat := ((x.toNat : Int) - (y.toNat : Int)).natAbs

/-- `dist2(px, e)`: the squared distance in R, G, B; alpha does not enter (43_quantizer R225). -/
def dist2 (px e : RGBA) : Nat :=
  channelDistance px.r e.r * channelDistance px.r e.r +
    channelDistance px.g e.g * channelDistance px.g e.g +
    channelDistance px.b e.b * channelDistance px.b e.b

/-- The minimum tracker: the least index of `0 .. n` at which `d` is least, scanning upward and moving
only to a strictly smaller value (43_quantizer R225, "ties resolve to the lowest index"). -/
def leastIndex (d : Nat → Nat) : Nat → Nat
  | 0 => 0
  | n + 1 => if d (n + 1) < d (leastIndex d n) then n + 1 else leastIndex d n

/-- `nearest(px, p)` (43_quantizer R225): every entry of the page takes part, also a transparent one. -/
def State.nearest (s : State) (f : IndexedFormat) (p : Nat) (px : RGBA) : Nat :=
  leastIndex (fun i => dist2 px (s.pageEntry f p i)) (f.pageSize - 1)

/-- Steps 2 and 3 of `quantize`: the index of a pixel the cache does not know (43_quantizer R224). -/
def State.resolve (s : State) (f : IndexedFormat) (p : Nat) (px : RGBA) : Nat :=
  if px.a = 0 then (s.ptrans f p).getD 0 else s.nearest f p px

/-- What a pixel's trip through the quantizer gives: the index, whether step 1 answered, and the state
with the cache after it. -/
structure Quantized where
  index : Byte
  hit : Bool
  after : State
deriving DecidableEq, Repr

/-- `quantize(px, p)` (43_quantizer R224). The key is `encode16(px)` (R221). -/
def quantize (f : IndexedFormat) (p : Nat) (s : State) (px : RGBA) : Quantized :=
  match s.cacheCell (encode16 px) with
  | some i => { index := i, hit := true, after := s }
  | none =>
    { index := BitVec.ofNat 8 (s.resolve f p px), hit := false
      after := s.fillCache (encode16 px) (BitVec.ofNat 8 (s.resolve f p px)) }

/-- Pixels presented one at a time in list order: their indices and the state after the last
(42_pixel_plane R196). -/
def quantizeAll (f : IndexedFormat) (p : Nat) : State → List RGBA → List Byte × State
  | s, [] => ([], s)
  | s, px :: pxs =>
    let q := quantize f p s px
    let rest := quantizeAll f p q.after pxs
    (q.index :: rest.1, rest.2)

/-- `QCLR` (43_quantizer R223). -/
def execQclr (s : State) : Host.Outcome State Fault Refusal :=
  conclude s (.ok (complete s.clearCache))

/-- What `QMATCH` does (43_quantizer R226). -/
def qmatch (s : State) : Except ErrorKind State := do
  let f ← s.checkPage
  let q := quantize f s.page.toNat s (RGBA.ofWord s.opa)
  pure ((q.after.setRes (q.index.setWidth 32)).setStatus (statusCompleted q.hit))

/-- `QMATCH`. -/
def execQmatch (s : State) : Host.Outcome State Fault Refusal := conclude s (qmatch s)

end Sys2Proof.Machine
end

