-- ==== Sys2Proof/Machine/Structure.lean ====
section
/-!
DEFINITION. The structure sequencer and control: the geometry functions, `PARSE`, `GEOM` and `NOP`
(44_structure_and_control).
-/

namespace Sys2Proof

/-- `correctWidth(f, sw)` (44_structure_and_control R256). -/
def PlaneFormat.correctWidth (f : PlaneFormat) (sw : Nat) : Nat :=
  match f with
  | .indexed .indexed4 => 4 * sw
  | .indexed .indexed8 => 2 * sw
  | .direct15 => sw
  | .direct24 => 2 * sw / 3

/-- `planeBytes(f, W, H)` (44_structure_and_control R257). -/
def PlaneFormat.planeBytes (f : PlaneFormat) (w h : Nat) : Nat :=
  match f with
  | .indexed .indexed4 => w * h / 2
  | .indexed .indexed8 => w * h
  | .direct15 => w * h * 2
  | .direct24 => w * h * 3

end Sys2Proof

namespace Sys2Proof.Machine

/-- `MAGIC`, the structure's first word (00_scope R7). -/
def structureMagic : Nat := 0x00000010

/-- A rect as it stands in `BUF` (30_encoding R107). -/
structure Rect where
  x : Nat
  y : Nat
  w : Nat
  h : Nat
deriving DecidableEq, Repr

/-- The CLUT block of a structure as `PARSE` walked it (44_structure_and_control R252 step 3): the
declared size, the rect, where the entries start, the entries, and where the walk goes on. -/
structure ClutBlock where
  size : Nat
  rect : Rect
  paloff : Nat
  entries : List Color16
  resume : Nat
deriving DecidableEq, Repr

/-- `rd(n)` with the position `p` written out (44_structure_and_control R252): a sequential read, or
`TruncatedInput` where it would pass the end of the stream. -/
def State.streamRead (s : State) (p n : Nat) : Except ErrorKind Nat :=
  if s.streamAdmitted p n then .ok (s.bufRead p n) else .error .truncatedInput

/-- Four `u16` fields in the order x, y, w, h (30_encoding R107). -/
def State.streamRect (s : State) (p : Nat) : Except ErrorKind Rect := do
  let x ← s.streamRead p 2
  let y ← s.streamRead (p + 2) 2
  let w ← s.streamRead (p + 4) 2
  let h ← s.streamRead (p + 6) 2
  pure { x, y, w, h }

/-- The page-size check of step 3: only an indexed format has one (44_structure_and_control R254). -/
def PlaneFormat.clutCountOk (f : PlaneFormat) (n : Nat) : Bool :=
  match f with
  | .indexed g => n % g.pageSize = 0
  | .direct15 => true
  | .direct24 => true

/-- Step 3 of the walk at position `p`, for a structure with a CLUT (44_structure_and_control R252,
R253 checks 6 to 10, R254). -/
def State.walkClut (s : State) (f : PlaneFormat) (p : Nat) : Except ErrorKind ClutBlock := do
  let size ← s.streamRead p 4
  let rect ← s.streamRect (p + 4)
  require (12 ≤ size) .invalidClutSize
  let n := (size - 12) / 2
  require (n ≤ s.params.clutMax) .clutCapacity
  require (s.streamAdmitted (p + 12) (2 * n)) .truncatedInput
  require (PlaneFormat.clutCountOk f n) .invalidClutSize
  pure { size, rect, paloff := p + 12, entries := s.bufEntries (p + 12) n, resume := p + 12 + 2 * n }

/-- What stands for the CLUT block of a structure without one (44_structure_and_control R252). -/
def noClut (p : Nat) : ClutBlock :=
  { size := 0, rect := { x := 0, y := 0, w := 0, h := 0 }, paloff := 0, entries := [], resume := p }

/-- Step 3 of the walk at position `p`, for a structure with or without a CLUT. -/
def State.clutBlock (s : State) (hasClut : Bool) (f : PlaneFormat) (p : Nat) :
    Except ErrorKind ClutBlock :=
  if hasClut then s.walkClut f p else .ok (noClut p)

/-- The commit of `PARSE` (44_structure_and_control R252): every write it makes but the last, to
`STATUS`. `mode` is `f | hc << 3`, the low four bits of the structure's mode word (R255). -/
def State.commitParse (s : State) (mode : Nat) (clut : ClutBlock) (psize : Nat) (rect : Rect)
    (trueWidth pixoff : Nat) : State :=
  { (s.loadClut clut.entries).clearCache with
    mode := BitVec.ofNat 32 mode
    clutsize := BitVec.ofNat 32 clut.size
    clutrectXY := packHalves clut.rect.x clut.rect.y
    clutrectWH := packHalves clut.rect.w clut.rect.h
    paloff := BitVec.ofNat 32 clut.paloff
    clutn := BitVec.ofNat 32 clut.entries.length
    pixsize := BitVec.ofNat 32 psize
    pixrectXY := packHalves rect.x rect.y
    pixrectWH := packHalves rect.w rect.h
    truew := BitVec.ofNat 32 trueWidth
    pixoff := BitVec.ofNat 32 pixoff }

/-- What `PARSE` does (44_structure_and_control R252, the checks in the order of R253). The position of
the walk is not state (10_state R22). -/
def parse (s : State) : Except ErrorKind State := do
  let p := s.spos.toNat
  let magic ← s.streamRead p 4
  require (magic = structureMagic) .invalidMagic
  let mode ← s.streamRead (p + 4) 4
  let f ← planeFormatOf (Format.ofCode (BitVec.ofNat 3 mode))
  let clut ← s.clutBlock (mode / 8 % 2 = 1) f (p + 8)
  let psize ← s.streamRead clut.resume 4
  let rect ← s.streamRect (clut.resume + 4)
  let width := f.correctWidth rect.w
  let pixoff := clut.resume + 12
  require (s.streamAdmitted pixoff (f.planeBytes width rect.h)) .truncatedInput
  pure (complete (s.commitParse (mode % 16) clut psize rect width pixoff))

/-- `PARSE`. -/
def execParse (s : State) : Host.Outcome State Fault Refusal := conclude s (parse s)

/-- What `GEOM` does (44_structure_and_control R258). -/
def geom (s : State) : Except ErrorKind State := do
  let f ← planeFormatOf s.format
  pure (complete (s.setTrueWidth (f.correctWidth s.storedWidth)))

/-- `GEOM`. -/
def execGeom (s : State) : Host.Outcome State Fault Refusal := conclude s (geom s)

/-- `NOP` (44_structure_and_control R260). -/
def execNop (s : State) : Host.Outcome State Fault Refusal := conclude s (.ok (complete s))

end Sys2Proof.Machine
end

