-- ==== Sys2Proof/Machine/Plane.lean ====
section
/-!
DEFINITION. The Pixel Plane Codec: `UNPACK` and `PACK` (42_pixel_plane).
-/

namespace Sys2Proof.Machine

/-- The checks `UNPACK` and `PACK` make on the CLUT and the page, for an indexed format only
(42_pixel_plane R186, R194). -/
def State.checkPlanePage (s : State) : PlaneFormat → Except ErrorKind Unit
  | .indexed f => do
    require (s.wholePages f) .invalidClutSize
    require (s.page.toNat < s.pageCount f) .pageRange
  | .direct15 => pure ()
  | .direct24 => pure ()

/-- An Indexed4 plane needs an even width (42_pixel_plane R181, 60_exceptions R291). -/
def State.widthOk (s : State) (f : PlaneFormat) : Bool :=
  !(f = .indexed .indexed4 && s.planeWidth % 2 = 1)

/-- `T`, the byte size of the plane (44_structure_and_control R257). -/
def State.planeSize (s : State) (f : PlaneFormat) : Nat := f.planeBytes s.planeWidth s.planeHeight

/-- The palette index of pixel `i` of an indexed plane (42_pixel_plane R181, R182). -/
def State.planeIndex (s : State) (f : IndexedFormat) (i : Nat) : Nat :=
  match f with
  | .indexed4 =>
    let byte := s.bufByte (s.pixoff.toNat + i / 2)
    if i % s.planeWidth % 2 = 0 then (byte.extractLsb' 0 4).toNat else (byte.extractLsb' 4 4).toNat
  | .indexed8 => (s.bufByte (s.pixoff.toNat + i)).toNat

/-- Pixel `i` of the plane at `PIXOFF` (42_pixel_plane R181 to R184, R186). -/
def State.planePixel (s : State) (f : PlaneFormat) (i : Nat) : RGBA :=
  match f with
  | .indexed g => s.pageEntry g s.page.toNat (s.planeIndex g i)
  | .direct15 => decode16 (BitVec.ofNat 16 (s.bufRead (s.pixoff.toNat + 2 * i) 2)) s.te
  | .direct24 =>
    { r := s.bufByte (s.pixoff.toNat + 3 * i)
      g := s.bufByte (s.pixoff.toNat + 3 * i + 1)
      b := s.bufByte (s.pixoff.toNat + 3 * i + 2)
      a := 255 }

/-- The image of the plane, row-major (00_scope R12). -/
def State.planeImage (s : State) (f : PlaneFormat) : List Word :=
  (List.range s.pixelCount).map (fun i => (s.planePixel f i).word)

/-- What `UNPACK` does (42_pixel_plane R186). -/
def unpack (s : State) : Except ErrorKind State := do
  let f ← planeFormatOf s.format
  s.checkPlanePage f
  require (s.widthOk f) .oddWidth
  require (s.streamAdmitted s.pixoff.toNat (s.planeSize f)) .truncatedInput
  require (s.imgAdmitted s.imgbase.toNat s.pixelCount) .destRange
  pure (complete ((s.writeImg s.imgbase.toNat (s.planeImage f)).setImageSize s.planeWidth s.planeHeight))

/-- `UNPACK`. -/
def execUnpack (s : State) : Host.Outcome State Fault Refusal := conclude s (unpack s)

/-- The format `PACK` encodes to: `Mixed` and `Direct24` are unsupported (42_pixel_plane R194). -/
def encodeFormatOf : Format → Except ErrorKind EncodeFormat
  | .invalid => .error .invalidFormat
  | .mixed => .error .unsupportedFormat
  | .plane .direct24 => .error .unsupportedFormat
  | .plane .direct15 => .ok .direct15
  | .plane (.indexed f) => .ok (.indexed f)

/-- The image `PACK` encodes: the pixels `IMG[IMGBASE .. IMGBASE + N - 1]` in row-major order
(42_pixel_plane R190, R196). -/
def State.sourceImage (s : State) : List RGBA :=
  (s.imgCells s.imgbase.toNat s.pixelCount).map RGBA.ofWord

/-- Two indices a byte, the even-`x` pixel in the low nibble (42_pixel_plane R195). -/
def packNibbles : List Byte → List Byte
  | lo :: hi :: rest => (lo ||| (hi <<< 4)) :: packNibbles rest
  | [_] => []
  | [] => []

/-- The plane bytes of quantized indices (42_pixel_plane R194, R195). -/
def indexBytes : IndexedFormat → List Byte → List Byte
  | .indexed4, indices => packNibbles indices
  | .indexed8, indices => indices

/-- The plane bytes of an image, and the state with the cache the encoding leaves (42_pixel_plane
R194). -/
def State.encodeImage (s : State) (f : EncodeFormat) : List Byte × State :=
  match f with
  | .direct15 => (entryBytes (s.sourceImage.map encode16), s)
  | .indexed g =>
    let q := quantizeAll g s.page.toNat s s.sourceImage
    (indexBytes g q.1, q.2)

/-- What `PACK` does (42_pixel_plane R194): the cache is cleared before the first pixel and after the
last (R197). -/
def pack (s : State) : Except ErrorKind State := do
  let f ← encodeFormatOf s.format
  s.checkPlanePage f.plane
  require (s.widthOk f.plane) .oddWidth
  require (s.imgw.toNat = s.planeWidth && s.imgh.toNat = s.planeHeight) .geometryMismatch
  require (s.imgAdmitted s.imgbase.toNat s.pixelCount) .truncatedInput
  require (s.bufAdmitted s.dst.toNat (s.planeSize f.plane)) .destRange
  let q := s.clearCache.encodeImage f
  pure (complete ((q.2.writeBuf s.dst.toNat q.1).clearCache))

/-- `PACK`. -/
def execPack (s : State) : Host.Outcome State Fault Refusal := conclude s (pack s)

end Sys2Proof.Machine
end

