-- ==== Sys2Proof/Machine/Dispatch.lean ====
section
/-!
DEFINITION. From a command to its meaning (30_encoding R102), one arm per command.
-/

namespace Sys2Proof.Machine

def exec (i : Instr) (s : State) : Host.Outcome State Fault Refusal :=
  match i with
  | .nop => Sys2Proof.Machine.execNop s
  | .dec16 => Sys2Proof.Machine.execDec16 s
  | .enc16 => Sys2Proof.Machine.execEnc16 s
  | .clutld => Sys2Proof.Machine.execClutld s
  | .split => Sys2Proof.Machine.execSplit s
  | .pagerd => Sys2Proof.Machine.execPagerd s
  | .clutst => Sys2Proof.Machine.execClutst s
  | .parse => Sys2Proof.Machine.execParse s
  | .geom => Sys2Proof.Machine.execGeom s
  | .unpack => Sys2Proof.Machine.execUnpack s
  | .pack => Sys2Proof.Machine.execPack s
  | .qclr => Sys2Proof.Machine.execQclr s
  | .qmatch => Sys2Proof.Machine.execQmatch s

end Sys2Proof.Machine
end

