-- ==== Sys2Proof/Machine/Registers.lean ====
section
/-!
DEFINITION. The register block as the host sees it: the map (10_state R57), the views (R48 to R50), what a
host read returns and what a host write stores.
-/

namespace Sys2Proof.Machine

/-- The named registers and views, in the order of the map (10_state R57). -/
inductive RegName where
  | cmd | status | ctrl | mode | opa | res | spos | slen | paloff | clutn | clen | pagecnt | page
  | ptrans | clutrectXY | clutrectWH | pixrectXY | pixrectWH | clutsize | pixsize | truew
  | truebytesLo | truebytesHi | pixoff | imgbase | imgw | imgh | dst | qcnt
deriving DecidableEq, Repr

/-- The byte offset of a register (10_state R57). -/
def RegName.offset : RegName → Nat
  | .cmd => 0x00
  | .status => 0x04
  | .ctrl => 0x08
  | .mode => 0x0C
  | .opa => 0x10
  | .res => 0x14
  | .spos => 0x18
  | .slen => 0x1C
  | .paloff => 0x20
  | .clutn => 0x24
  | .clen => 0x28
  | .pagecnt => 0x2C
  | .page => 0x30
  | .ptrans => 0x34
  | .clutrectXY => 0x38
  | .clutrectWH => 0x3C
  | .pixrectXY => 0x40
  | .pixrectWH => 0x44
  | .clutsize => 0x48
  | .pixsize => 0x4C
  | .truew => 0x50
  | .truebytesLo => 0x54
  | .truebytesHi => 0x58
  | .pixoff => 0x5C
  | .imgbase => 0x60
  | .imgw => 0x64
  | .imgh => 0x68
  | .dst => 0x6C
  | .qcnt => 0x70

/-- The registers in the order of the map. -/
def RegName.all : List RegName :=
  [.cmd, .status, .ctrl, .mode, .opa, .res, .spos, .slen, .paloff, .clutn, .clen, .pagecnt, .page,
    .ptrans, .clutrectXY, .clutrectWH, .pixrectXY, .pixrectWH, .clutsize, .pixsize, .truew,
    .truebytesLo, .truebytesHi, .pixoff, .imgbase, .imgw, .imgh, .dst, .qcnt]

/-- The register at an offset, `none` at a reserved one (10_state R47). -/
def RegName.ofOffset (offset : Nat) : Option RegName :=
  RegName.all.find? (fun r => r.offset = offset)

/-- `PAGECNT` (10_state R48). -/
def State.pagecntView (s : State) : Word :=
  match s.format with
  | .plane (.indexed f) => if s.wholePages f then BitVec.ofNat 32 (s.pageCount f) else 0
  | .plane .direct15 => 0
  | .plane .direct24 => 0
  | .mixed => 0
  | .invalid => 0

/-- `PTRANS`: `VALID` in bit 8, `INDEX` in bits 7:0 (10_state R49). -/
def State.ptransView (s : State) : Word :=
  match s.format with
  | .plane (.indexed f) =>
    if s.wholePages f && s.page.toNat < s.pageCount f then
      match s.ptrans f s.page.toNat with
      | some i => BitVec.ofNat 32 (0x100 + i)
      | none => 0
    else 0
  | .plane .direct15 => 0
  | .plane .direct24 => 0
  | .mixed => 0
  | .invalid => 0

/-- `T` of the view `TRUEBYTES` (10_state R50). -/
def State.trueBytes (s : State) : Nat :=
  match s.format with
  | .plane f => f.planeBytes s.planeWidth s.planeHeight
  | .mixed => 0
  | .invalid => 0

/-- What a host read of a register returns (10_state R24 to R50). -/
def State.readReg (s : State) : RegName → Word
  | .cmd => s.cmd
  | .status => s.status
  | .ctrl => s.ctrl
  | .mode => s.mode
  | .opa => s.opa
  | .res => s.res
  | .spos => s.spos
  | .slen => s.slen
  | .paloff => s.paloff
  | .clutn => s.clutn
  | .clen => s.clen
  | .pagecnt => s.pagecntView
  | .page => s.page
  | .ptrans => s.ptransView
  | .clutrectXY => s.clutrectXY
  | .clutrectWH => s.clutrectWH
  | .pixrectXY => s.pixrectXY
  | .pixrectWH => s.pixrectWH
  | .clutsize => s.clutsize
  | .pixsize => s.pixsize
  | .truew => s.truew
  | .truebytesLo => BitVec.ofNat 32 s.trueBytes
  | .truebytesHi => BitVec.ofNat 32 (s.trueBytes / 2 ^ 32)
  | .pixoff => s.pixoff
  | .imgbase => s.imgbase
  | .imgw => s.imgw
  | .imgh => s.imgh
  | .dst => s.dst
  | .qcnt => s.qcnt

/-- What a host write stores, before any command runs: the write masks of 30_encoding R113, the ignored
writes of 10_state R25, R29, R34, R46, R47, and the cache-clearing writes of 43_quantizer R222. -/
def State.storeReg (s : State) (r : RegName) (v : Word) : State :=
  match r with
  | .cmd => { s with cmd := v }
  | .status => s
  | .ctrl => { s with ctrl := v &&& 0x1 }.clearCache
  | .mode => { s with mode := v &&& 0xF }.clearCache
  | .opa => { s with opa := v }
  | .res => s
  | .spos => { s with spos := v }
  | .slen => { s with slen := v }
  | .paloff => { s with paloff := v }
  | .clutn => { s with clutn := v }
  | .clen => s
  | .pagecnt => s
  | .page => { s with page := v }.clearCache
  | .ptrans => s
  | .clutrectXY => { s with clutrectXY := v }
  | .clutrectWH => { s with clutrectWH := v }
  | .pixrectXY => { s with pixrectXY := v }
  | .pixrectWH => { s with pixrectWH := v }
  | .clutsize => { s with clutsize := v }
  | .pixsize => { s with pixsize := v }
  | .truew => { s with truew := v &&& 0x3FFFF }
  | .truebytesLo => s
  | .truebytesHi => s
  | .pixoff => { s with pixoff := v }
  | .imgbase => { s with imgbase := v }
  | .imgw => { s with imgw := v }
  | .imgh => { s with imgh := v }
  | .dst => { s with dst := v }
  | .qcnt => s

end Sys2Proof.Machine
end

