-- ==== Sys2Proof/Machine/HostPort.lean ====
section
/-!
DEFINITION. What one host action does (30_encoding R115, 60_exceptions R302), and how a command is issued
(44_structure_and_control R250).
-/

namespace Sys2Proof.Machine

/-- Take the oldest pending host action off the list. -/
def State.withPending (s : State) (rest : List HostAction) : State := { s with pending := rest }

/-- Record what a read gave the host. -/
def State.addReply (s : State) (r : Reply) : State := { s with replies := r :: s.replies }

/-- A host write of `w` to `CMD` (44_structure_and_control R250): `CMD` keeps the word whatever
happens; an illegal word faults `IllegalCommand` and does nothing else (30_encoding R101). -/
def issue (w : Word) (s : State) : Host.Outcome State Fault Refusal :=
  match decode w with
  | .ok i => exec i (s.storeReg .cmd w)
  | .error _ => .next (takeFault .illegalCommand (s.storeReg .cmd w))

/-- A host write to a register (10_state R57): only `CMD` executes something; a reserved offset ignores
the write (10_state R47). -/
def hostWriteReg (offset : Nat) (v : Word) (s : State) : Host.Outcome State Fault Refusal :=
  match RegName.ofOffset offset with
  | some .cmd => issue v s
  | some r => .next (s.storeReg r v)
  | none => .next s

/-- The value a host read at an offset returns: 0 at a reserved one (10_state R47). -/
def State.readOffset (s : State) (offset : Nat) : Word :=
  match RegName.ofOffset offset with
  | some r => s.readReg r
  | none => 0

/-- Register accesses the spec gives a meaning: word offsets inside the 256-byte block
(93_implementation_defined U2, U7; log entry 12). -/
def atRegister (offset : Nat) (go : Host.Outcome State Fault Refusal) :
    Host.Outcome State Fault Refusal :=
  if offset % 4 ≠ 0 then .refused .misalignedRegisterOffset
  else if 0x100 ≤ offset then .refused .beyondRegisterBlock
  else go

/-- One host action (30_encoding R115). Reads have no side effect (20_memory R81); they only answer the
host. An access to a cell that does not exist stops the model (log entry 11). -/
def hostAct (a : HostAction) (s : State) : Host.Outcome State Fault Refusal :=
  match a with
  | .writeReg offset v => atRegister offset (hostWriteReg offset v s)
  | .readReg offset => atRegister offset (.next (s.addReply (.register (s.readOffset offset))))
  | .writeBuf address bytes =>
    if s.bufAdmitted address bytes.length then .next (s.writeBuf address bytes)
    else .fault .bufAddressAbsent
  | .readBuf address count =>
    if s.bufAdmitted address count then .next (s.addReply (.bytes (s.bufBytes address count)))
    else .fault .bufAddressAbsent
  | .writeImg index pixels =>
    if s.imgAdmitted index pixels.length then .next (s.writeImg index pixels)
    else .fault .imgIndexAbsent
  | .readImg index count =>
    if s.imgAdmitted index count then .next (s.addReply (.pixels (s.imgCells index count)))
    else .fault .imgIndexAbsent
  | .reset => .next (resetEvent s)

/-- The next event of the block: the oldest pending host action, or nothing: the block is idle and holds
all state (60_exceptions R301; log entry 2). -/
def advance (s : State) : Host.Outcome State Fault Refusal :=
  match s.pending with
  | [] => .next s
  | a :: rest => hostAct a (s.withPending rest)

/-- `s` with a host write of an opcode-table row's word to `CMD` as its oldest pending action; unchanged
where the bits fit no command word. -/
def State.withCommand (s : State) (nbits w : Nat) : State :=
  match tableWord nbits w with
  | some word => s.withPending (.writeReg 0x00 word :: s.pending)
  | none => s

end Sys2Proof.Machine
end

