-- ==== Sys2Proof/Machine/Step.lean ====
section
/-!
DEFINITION. One step of the block, and where the next command is found.
-/

namespace Sys2Proof.Machine

/-- One step: the next event in the total order of host actions (20_memory R83). -/
def step (s : State) : Host.Outcome State Fault Refusal := advance s

/-- `s` with a command word where the next step finds its command: as the data of the host's write to
`CMD` (20_memory R86; log entry 3). -/
def State.withFetchWord (s : State) (nbits w : Nat) : State := s.withCommand nbits w

end Sys2Proof.Machine
end

