-- ==== Sys2Proof/Safety.lean ====
section
/-!
DEFINITION. What a state of a run looks like: the invariants the claims are stated in, and what it means
that a command completes, faults, or stops.
-/

namespace Sys2Proof.Safety

open Sys2Proof.Machine

/-- Reserved bits of the stored registers are 0 (30_encoding R113): `CTRL[31:1]`, `MODE[31:4]`,
`TRUEW[31:18]`. -/
def ReservedBitsZero (s : State) : Prop :=
  s.ctrl.toNat < 2 ∧ s.mode.toNat < 2 ^ 4 ∧ s.truew.toNat < 2 ^ 18

/-- `STATUS` holds no fault and no hit, a `QMATCH` hit, or one of the eleven codes with no hit
(10_state R25, 60_exceptions R280, R286). -/
def StatusLegal (s : State) : Prop := s.status.toNat ≤ 11 ∨ s.status.toNat = 0x100

/-- `CLEN` is the number of defined CLUT entries, at most `CLUT_MAX` (10_state R34, R53). -/
def ClutCounted (s : State) : Prop :=
  s.clut.length = s.clen.toNat ∧ s.clen.toNat ≤ s.params.clutMax

/-- The cache is in its canonical form, its keys are 16-bit, and `QCNT` is the number of filled cells
(10_state R46, R54; 43_quantizer R229). -/
def CacheCounted (s : State) : Prop :=
  Memory.wf s.cache ∧ (∀ e ∈ s.cache, e.1 < 2 ^ 16) ∧ s.cache.length = s.qcnt.toNat

/-- Every cached index is what steps 2 and 3 of the quantizer give, on the state as it is, for some pixel
with that key, and it is below the page size (43_quantizer R229). -/
def CacheSound (s : State) : Prop :=
  ∀ (k : Color16) (i : Byte), s.cacheCell k = some i →
    ∃ (f : IndexedFormat) (px : RGBA), s.format = .plane (.indexed f) ∧ s.wholePages f = true ∧
      s.page.toNat < s.pageCount f ∧ encode16 px = k ∧ i.toNat = s.resolve f s.page.toNat px ∧
      i.toNat < f.pageSize

/-- `BUF` and `IMG` are in their canonical form and list only cells the instance has (10_state R51, R52;
log entry 9). -/
def MemoriesBounded (s : State) : Prop :=
  Memory.wf s.buf ∧ (∀ e ∈ s.buf, e.1 < s.params.bufSize) ∧
    Memory.wf s.img ∧ (∀ e ∈ s.img, e.1 < s.params.imgSize)

/-- A command ended in `t` without a fault (60_exceptions R280). -/
def Completed (t : State) : Prop := t.statusErr = 0

/-- `CTRL`, `MODE` and `PAGE`: the registers whose host write clears the cache (10_state R57, "cc"). -/
def clearsCache : RegName → Bool
  | .ctrl | .mode | .page => true
  | _ => false

/-- The registers a host write leaves as they are: `RO` and `V` in the map (10_state R57). -/
def hostReadOnly : RegName → Bool
  | .status | .res | .clen | .qcnt | .pagecnt | .ptrans | .truebytesLo | .truebytesHi => true
  | _ => false

/-- The views, which hold no state (10_state R48 to R50). -/
def isView : RegName → Bool
  | .pagecnt | .ptrans | .truebytesLo | .truebytesHi => true
  | _ => false

/-- The bits a host write can set (30_encoding R113). -/
def writeMask : RegName → Word
  | .ctrl => 0x1
  | .mode => 0xF
  | .truew => 0x3FFFF
  | _ => 0xFFFFFFFF

/-- The commands that write a register, `STATUS` apart, which every command writes: the column "written
by commands" of the map (10_state R57). -/
def writers : RegName → List Instr
  | .mode | .paloff | .clutn | .clutrectXY | .clutrectWH | .pixrectXY | .pixrectWH | .clutsize
  | .pixsize | .pixoff => [.parse]
  | .res => [.dec16, .enc16, .split, .pagerd, .qmatch]
  | .clen => [.parse, .clutld]
  | .truew => [.parse, .geom]
  | .imgw | .imgh => [.unpack]
  | .qcnt => [.qclr, .qmatch, .pack, .parse, .clutld]
  | _ => []

/-! ## The rules' tables in numbers -/

/-- `MODE.FORMAT` as a number. -/
def formatNumber (s : State) : Nat := s.formatCode.toNat

/-- The page size of format code 0 or 1 (41_palette_pages R150). -/
def pageSizeNumber (f : Nat) : Nat := if f = 0 then 16 else 256

/-- The corrected width for format codes 0 to 3 (44_structure_and_control R256). -/
def widthNumber (f sw : Nat) : Nat :=
  if f = 0 then 4 * sw else if f = 1 then 2 * sw else if f = 2 then sw else 2 * sw / 3

/-- The plane size for format codes 0 to 3 (44_structure_and_control R257). -/
def sizeNumber (f w h : Nat) : Nat :=
  if f = 0 then w * h / 2 else if f = 1 then w * h else if f = 2 then w * h * 2 else w * h * 3

/-- The code the checks of a command that uses pages give, `none` where all pass (41_palette_pages
R156, `checkPages`). -/
def pagesFault (s : State) : Option Nat :=
  let f := formatNumber s
  if 5 ≤ f then some 2
  else if 2 ≤ f then some 4
  else if s.clen.toNat % pageSizeNumber f ≠ 0 then some 3
  else none

/-- The same with the active page (41_palette_pages R156, `checkPage`). -/
def pageFault (s : State) : Option Nat :=
  match pagesFault s with
  | some c => some c
  | none => if s.clen.toNat / pageSizeNumber (formatNumber s) ≤ s.page.toNat then some 7 else none

/-- The code the checks of `UNPACK` give (42_pixel_plane R186). -/
def unpackFault (s : State) : Option Nat :=
  let f := formatNumber s
  let n := s.planeWidth * s.planeHeight
  let t := sizeNumber f s.planeWidth s.planeHeight
  if 5 ≤ f then some 2
  else if f = 4 then some 4
  else if f ≤ 1 ∧ s.clen.toNat % pageSizeNumber f ≠ 0 then some 3
  else if f ≤ 1 ∧ s.clen.toNat / pageSizeNumber f ≤ s.page.toNat then some 7
  else if f = 0 ∧ s.planeWidth % 2 = 1 then some 10
  else if 0 < t ∧ min s.slen.toNat s.params.bufSize < s.pixoff.toNat + t then some 5
  else if 0 < n ∧ s.params.imgSize < s.imgbase.toNat + n then some 8
  else none

/-- The code the checks of `PACK` give (42_pixel_plane R194). -/
def packFault (s : State) : Option Nat :=
  let f := formatNumber s
  let n := s.planeWidth * s.planeHeight
  let t := sizeNumber f s.planeWidth s.planeHeight
  if 5 ≤ f then some 2
  else if 3 ≤ f then some 4
  else if f ≤ 1 ∧ s.clen.toNat % pageSizeNumber f ≠ 0 then some 3
  else if f ≤ 1 ∧ s.clen.toNat / pageSizeNumber f ≤ s.page.toNat then some 7
  else if f = 0 ∧ s.planeWidth % 2 = 1 then some 10
  else if s.imgw.toNat ≠ s.planeWidth ∨ s.imgh.toNat ≠ s.planeHeight then some 6
  else if 0 < n ∧ s.params.imgSize < s.imgbase.toNat + n then some 5
  else if 0 < t ∧ s.params.bufSize < s.dst.toNat + t then some 8
  else none

/-- The fields of a structure at `SPOS`, by their places in `BUF` (30_encoding R108): the mode word, whether
there is a CLUT, its declared size and entry count, and where the pixel block starts. -/
def headerMode (s : State) : Nat := s.bufRead (s.spos.toNat + 4) 4

/-- See `headerMode`. -/
def headerHasClut (s : State) : Bool := headerMode s / 8 % 2 = 1

/-- See `headerMode`. -/
def headerClutSize (s : State) : Nat := s.bufRead (s.spos.toNat + 8) 4

/-- See `headerMode`. -/
def headerEntries (s : State) : Nat := if headerHasClut s then (headerClutSize s - 12) / 2 else 0

/-- See `headerMode`. -/
def headerPixelBlock (s : State) : Nat :=
  if headerHasClut s then s.spos.toNat + 20 + 2 * headerEntries s else s.spos.toNat + 8

/-- The true width of the structure at `SPOS`. -/
def headerWidth (s : State) : Nat :=
  widthNumber (headerMode s % 8) (s.bufRead (headerPixelBlock s + 8) 2)

/-- The true byte size of the structure at `SPOS`. -/
def headerPlaneSize (s : State) : Nat :=
  sizeNumber (headerMode s % 8) (headerWidth s) (s.bufRead (headerPixelBlock s + 10) 2)

/-- The code the twelve checks of `PARSE` give, in the order of the table of
44_structure_and_control R253. -/
def parseFault (s : State) : Option Nat :=
  let p := s.spos.toNat
  let lim := min s.slen.toNat s.params.bufSize
  let f := headerMode s % 8
  let n := headerEntries s
  let q := headerPixelBlock s
  if lim < p + 4 then some 5
  else if s.bufRead p 4 ≠ 0x10 then some 1
  else if lim < p + 8 then some 5
  else if 4 < f then some 2
  else if f = 4 then some 4
  else if headerHasClut s ∧ lim < p + 20 then some 5
  else if headerHasClut s ∧ headerClutSize s < 12 then some 3
  else if headerHasClut s ∧ s.params.clutMax < n then some 9
  else if headerHasClut s ∧ 0 < n ∧ lim < p + 20 + 2 * n then some 5
  else if headerHasClut s ∧ f ≤ 1 ∧ n % pageSizeNumber f ≠ 0 then some 3
  else if lim < q + 12 then some 5
  else if 0 < headerPlaneSize s ∧ lim < q + 12 + headerPlaneSize s then some 5
  else none

/-- The squared Euclidean distance in R, G, B over the integers (43_quantizer R225). -/
def squaredDistance (x y : RGBA) : Int :=
  ((x.r.toNat : Int) - y.r.toNat) ^ 2 + ((x.g.toNat : Int) - y.g.toNat) ^ 2 +
    ((x.b.toNat : Int) - y.b.toNat) ^ 2

/-- The pixel at position `i` of the image at `IMGBASE` (42_pixel_plane R190). -/
def imagePixel (s : State) (i : Nat) : RGBA := RGBA.ofWord (s.imgCell (s.imgbase.toNat + i))

/-- The two steps of a run that issues command `i` and then command `j`: both answer a next state, the
last of them `t`. -/
def RunsTo (i j : Instr) (s m t : State) : Prop := exec i s = .next m ∧ exec j m = .next t

end Sys2Proof.Safety
end

