-- ==== Sys2Proof/Certificates/Slice0/Obligations.lean ====
section
/-!
DEFINITION. The statements for the provers. Each is about the machine, not about a program; the docstring
names the rule it formalises.
-/

open Sys2Proof Sys2Proof.Machine Sys2Proof.Safety

/-! ## Encoding and issue -/

/-- The thirteen rows of the opcode map, each word written out (30_encoding R102). -/
def Obligations.OpcodeMapWordsDecode : Prop :=
  decode 0x00000000 = .ok .nop ∧ decode 0x00000001 = .ok .dec16 ∧ decode 0x00000002 = .ok .enc16 ∧
    decode 0x00000010 = .ok .clutld ∧ decode 0x00000011 = .ok .split ∧
    decode 0x00000012 = .ok .pagerd ∧ decode 0x00000013 = .ok .clutst ∧
    decode 0x00000020 = .ok .parse ∧ decode 0x00000021 = .ok .geom ∧
    decode 0x00000030 = .ok .unpack ∧ decode 0x00000031 = .ok .pack ∧
    decode 0x00000040 = .ok .qclr ∧ decode 0x00000041 = .ok .qmatch

/-- Decoding the encoding of any command gives it back, and its word is well formed. -/
def Obligations.DecodeInvertsEncode : Prop :=
  ∀ i : Instr, i.wellFormed = true →
    decode (encode i) = .ok i ∧ CommandWord.wellFormed (encode i) = true

/-- Of the 2^32 words exactly the thirteen encodings decode, and the refused words are named by the field
that is wrong (30_encoding R101). -/
def Obligations.DecodeAcceptsExactlyTheEncodings : Prop :=
  ∀ w : Word,
    (∀ i, decode w = .ok i ↔ w = encode i) ∧
      (decode w = .error .zeroField ↔ w.toNat / 256 ≠ 0) ∧
      (decode w = .error .opcode ↔ w.toNat / 256 = 0 ∧ ∀ i, w ≠ encode i) ∧
      (CommandWord.wellFormed w = true ↔ ∃ i, decode w = .ok i)

/-- When the oldest pending host action writes to `CMD` a word that decodes to a well-formed command, the
step is that command's meaning on the state with the action taken off and the word in `CMD`
(44_structure_and_control R250). -/
def Obligations.StepRunsTheDecodedCommand : Prop :=
  ∀ (s : State) (rest : List HostAction) (w : Word) (i : Instr),
    s.pending = .writeReg 0x00 w :: rest → decode w = .ok i → i.wellFormed = true →
      step s = exec i { s with pending := rest, cmd := w }

/-- Every word written to `CMD` has exactly one outcome: it is one of the thirteen commands and runs it, or
it faults `IllegalCommand` (code 11) and does nothing else (30_encoding R101, R111; 60_exceptions R292). -/
def Obligations.EveryCommandWordHasOneOutcome : Prop :=
  ∀ (s : State) (rest : List HostAction) (w : Word),
    s.pending = .writeReg 0x00 w :: rest →
      (∀ i, w = encode i → step s = exec i { s with pending := rest, cmd := w }) ∧
        ((∀ i, w ≠ encode i) → step s = .next { s with pending := rest, cmd := w, status := 11 })

/-- A command placed where the next step finds it is the command the next step runs. -/
def Obligations.PlacedCommandRunsNext : Prop :=
  ∀ (s : State) (i : Instr),
    step (s.withFetchWord 32 (encode i).toNat) = exec i { s with cmd := encode i }

/-! ## The host port -/

/-- With no host action pending the step changes nothing. The model's choice: log entry 2, from "the block
is idle between commands and holds all state" (60_exceptions R301). -/
def Obligations.IdleStepHoldsAllState : Prop :=
  ∀ s : State, s.pending = [] → step s = .next s

/-- A host write to a register other than `CMD`: read-only registers and views keep everything; any other
register then reads as the written value under its write mask, no other stored register changes (but
`QCNT` where the write clears the cache), and nothing else changes (10_state R57, 30_encoding R113,
43_quantizer R222). -/
def Obligations.HostRegisterWriteStoresUnderItsMask : Prop :=
  ∀ (s : State) (rest : List HostAction) (r : RegName) (v : Word),
    s.pending = .writeReg r.offset v :: rest → r ≠ .cmd →
      ∃ t, step s = .next t ∧
        (hostReadOnly r = true → t = { s with pending := rest }) ∧
        (hostReadOnly r = false →
          t.readReg r = v &&& writeMask r ∧
            (∀ q, q ≠ r → isView q = false → q ≠ .qcnt → t.readReg q = s.readReg q) ∧
            (clearsCache r = true → (∀ k, t.cacheCell k = none) ∧ t.qcnt = 0) ∧
            (clearsCache r = false → t.cache = s.cache ∧ t.qcnt = s.qcnt) ∧
            t.pending = rest ∧ t.params = s.params ∧ t.replies = s.replies ∧ t.epoch = s.epoch ∧
            t.buf = s.buf ∧ t.img = s.img ∧ t.clut = s.clut)

/-- Reserved register bits and reserved offsets ignore writes and read 0 (30_encoding R113, 10_state R47):
the offsets `0x74` to `0xFC`, and, where the reserved bits of the state are 0, the bits `CTRL[31:1]`,
`MODE[31:4]`, `TRUEW[31:18]`, before and after a write of any value. -/
def Obligations.ReservedBitsAndOffsetsReadZero : Prop :=
  (∀ (s : State) (rest : List HostAction) (o : Nat) (v : Word), o % 4 = 0 → 0x74 ≤ o → o < 0x100 →
      (s.pending = .writeReg o v :: rest → step s = .next { s with pending := rest }) ∧
      (s.pending = .readReg o :: rest →
        step s = .next { s with pending := rest, replies := .register 0 :: s.replies })) ∧
  (∀ (s : State) (rest : List HostAction) (r : RegName) (v : Word), r ∈ [.ctrl, .mode, .truew] →
      ReservedBitsZero s →
      s.readReg r &&& ~~~writeMask r = 0 ∧
        (s.pending = .writeReg r.offset v :: rest →
          ∃ t, step s = .next t ∧ t.readReg r = v &&& writeMask r ∧
            t.readReg r &&& ~~~writeMask r = 0))

/-- A host read of a register answers with the register's value and has no side effect (20_memory R81). -/
def Obligations.HostRegisterReadOnlyAnswers : Prop :=
  ∀ (s : State) (rest : List HostAction) (r : RegName), s.pending = .readReg r.offset :: rest →
    step s = .next { s with pending := rest, replies := .register (s.readReg r) :: s.replies }

/-- A host write of `BUF` bytes, or of `IMG` cells, inside the memory, changes the addressed cells and only
them; reading them back gives the written values and changes only the host's answers (20_memory R81,
R83). -/
def Obligations.HostMemoryWriteThenReadGivesTheValues : Prop :=
  (∀ (s : State) (rest : List HostAction) (a : Nat) (bs : List Byte),
      s.pending = .writeBuf a bs :: .readBuf a bs.length :: rest →
      a + bs.length ≤ s.params.bufSize →
        ∃ t, step s = .next t ∧
          t = { s with pending := .readBuf a bs.length :: rest, buf := t.buf } ∧
          (∀ x, x < a ∨ a + bs.length ≤ x → t.bufByte x = s.bufByte x) ∧
          (∀ k (h : k < bs.length), t.bufByte (a + k) = bs[k]) ∧
          step t = .next { t with pending := rest, replies := .bytes bs :: t.replies }) ∧
  (∀ (s : State) (rest : List HostAction) (i : Nat) (ps : List Word),
      s.pending = .writeImg i ps :: .readImg i ps.length :: rest →
      i + ps.length ≤ s.params.imgSize →
        ∃ t, step s = .next t ∧
          t = { s with pending := .readImg i ps.length :: rest, img := t.img } ∧
          (∀ x, x < i ∨ i + ps.length ≤ x → t.imgCell x = s.imgCell x) ∧
          (∀ k (h : k < ps.length), t.imgCell (i + k) = ps[k]) ∧
          step t = .next { t with pending := rest, replies := .pixels ps :: t.replies })

/-- Where the model stops, and only there: a host access to a cell that does not exist (log entry 11), at an
offset that is no multiple of 4, or beyond the register block (93_implementation_defined U2, U7; log
entry 12). -/
def Obligations.OnlyUndefinedHostAccessesStop : Prop :=
  ∀ (s : State) (a : HostAction) (rest : List HostAction), s.pending = a :: rest →
    (a.wellFormed s.params = true → ∃ t, step s = .next t) ∧
      (a.wellFormed s.params = false →
        (∃ r, step s = .refused r ∧ (r = .misalignedRegisterOffset ∨ r = .beyondRegisterBlock)) ∨
          (∃ f, step s = .fault f))

/-- The reset event puts every stored register at 0 and every cache cell at `none`, keeps the instance, and
executes no command; the views then read 0 (70_reset_and_hazards R320, 10_state R56). -/
def Obligations.ResetEventClearsRegistersAndCache : Prop :=
  ∀ (s : State) (rest : List HostAction), s.pending = .reset :: rest →
    ∃ t, step s = .next t ∧ (∀ r, t.readReg r = 0) ∧ (∀ k, t.cacheCell k = none) ∧
      t.params = s.params ∧ t.pending = rest ∧ t.replies = s.replies

/-- Each command as the first after reset, on an instance of any sizes (70_reset_and_hazards R321). -/
def Obligations.FirstCommandAfterReset : Prop :=
  ∀ (p : Params), p.wf →
    let s : State := State.resetWith p
    exec .nop s = .next s ∧ exec .qclr s = .next s ∧ exec .clutst s = .next s ∧
      exec .geom s = .next s ∧ exec .split s = .next s ∧ exec .clutld s = .next s ∧
      exec .dec16 s = .next { s with res := 0xFF000000 } ∧
      exec .enc16 s = .next { s with res := 0x00008000 } ∧
      exec .parse s = .next { s with status := 5 } ∧
      exec .unpack s = .next { s with status := 7 } ∧
      exec .pack s = .next { s with status := 7 } ∧
      exec .pagerd s = .next { s with status := 7 } ∧
      exec .qmatch s = .next { s with status := 7 }

/-! ## Every command -/

/-- Fault entry (60_exceptions R286): every command, in every state, answers a next state; either `ERR` is
0, or the next state is the old one with nothing changed but `STATUS`, which holds the code and no
hit. -/
def Obligations.FaultingCommandHasNoOtherEffect : Prop :=
  ∀ (i : Instr) (s : State), ∃ t, exec i s = .next t ∧
    (t.statusErr = 0 ∨
      ∃ e : ErrorKind, t = { s with status := BitVec.ofNat 32 e.code } ∧ t.statusHit = false ∧
        t.statusErr.toNat = e.code ∧ 1 ≤ e.code ∧ e.code ≤ 10)

/-- `STATUS.HIT` is 0 after every command but a `QMATCH` that the cache answered (10_state R23,
44_structure_and_control R251). -/
def Obligations.HitFlagOnlyFromAQmatchHit : Prop :=
  ∀ (i : Instr) (s t : State), exec i s = .next t →
    (t.statusHit = true ↔
      i = .qmatch ∧ t.statusErr = 0 ∧ s.cacheCell (encode16 (RGBA.ofWord s.opa)) ≠ none) ∧
    (t.status = 0x100 ∨ t.status.toNat ≤ 10)

/-- A stored register a command does not write, by the column "written by commands" of the map (10_state
R57), keeps its value; so do the host's side of the port and the instance. -/
def Obligations.CommandsWriteOnlyTheListedRegisters : Prop :=
  ∀ (i : Instr) (s t : State), exec i s = .next t →
    (∀ r, isView r = false → r ≠ .status → i ∉ writers r → t.readReg r = s.readReg r) ∧
      t.params = s.params ∧ t.pending = s.pending ∧ t.replies = s.replies ∧ t.epoch = s.epoch

/-- What each command moves (20_memory R80): `BUF` is written by `PACK` and `CLUTST` only, `IMG` by `UNPACK`
only, the CLUT RAM by `PARSE` and `CLUTLD` only, the cache by `QCLR`, `QMATCH`, `PACK`, `PARSE` and
`CLUTLD` only. -/
def Obligations.CommandsWriteOnlyTheListedMemories : Prop :=
  ∀ (i : Instr) (s t : State), exec i s = .next t →
    (i ∉ [.pack, .clutst] → t.buf = s.buf ∧ ∀ a, t.bufByte a = s.bufByte a) ∧
      (i ≠ .unpack → t.img = s.img ∧ ∀ k, t.imgCell k = s.imgCell k) ∧
      (i ∉ [.parse, .clutld] → t.clut = s.clut ∧ t.clen = s.clen) ∧
      (i ∉ [.qclr, .qmatch, .pack, .parse, .clutld] → t.cache = s.cache ∧ t.qcnt = s.qcnt)

/-! ## Invariants every step keeps -/

/-- The state after reset meets the invariants stated below. The instance's sizes are the model's choice
(log entry 4). -/
def Obligations.ResetMeetsTheInvariants : Prop :=
  State.reset.params.wf ∧ ReservedBitsZero State.reset ∧ StatusLegal State.reset ∧
    ClutCounted State.reset ∧ CacheCounted State.reset ∧ CacheSound State.reset ∧
    MemoriesBounded State.reset

/-- Every step keeps the reserved bits 0 and `STATUS` at one of its legal values (30_encoding R113, 10_state
R25, 60_exceptions R280). -/
def Obligations.StepKeepsReservedBitsAndStatus : Prop :=
  ∀ s t : State, step s = .next t → ReservedBitsZero s → StatusLegal s →
    ReservedBitsZero t ∧ StatusLegal t

/-- Every step keeps `CLEN` the number of defined CLUT entries, at most `CLUT_MAX` (10_state R34, R53). -/
def Obligations.StepKeepsClutCounted : Prop :=
  ∀ s t : State, step s = .next t → ClutCounted s → ClutCounted t

/-- Every step keeps `QCNT` the number of filled cache cells, with the cache in its canonical form (10_state
R46, 43_quantizer R229). -/
def Obligations.StepKeepsCacheCounted : Prop :=
  ∀ s t : State, step s = .next t → CacheCounted s → CacheCounted t

/-- Every step keeps every cached index one that the quantizer's steps 2 and 3 give, on the CLUT, page,
format and translucency enable as they are, for a pixel with that key (43_quantizer R229). -/
def Obligations.StepKeepsCacheSound : Prop :=
  ∀ s t : State, step s = .next t → CacheSound s → CacheSound t

/-- Every step keeps `BUF` and `IMG` in canonical form and inside the instance's sizes, and the sizes as
they are (10_state R51, R52; 00_scope R7). -/
def Obligations.StepKeepsMemoriesBounded : Prop :=
  ∀ s t : State, step s = .next t → MemoriesBounded s → MemoriesBounded t ∧ t.params = s.params

/-- A filled cache cell keeps its index until the whole cache is cleared, and the cache is cleared by
exactly the listed events (43_quantizer R222): the reset event, `QCLR`, a successful `PACK`, `CLUTLD` or
`PARSE`, and a host write to `PAGE`, `MODE` or `CTRL`. -/
def Obligations.CacheClearedByExactlyTheListedEvents : Prop :=
  ∀ (s t : State) (a : HostAction) (rest : List HostAction), s.pending = a :: rest →
    step s = .next t →
      let clears : Prop :=
        a = .reset ∨ (∃ r v, a = .writeReg r.offset v ∧ clearsCache r = true) ∨
          (∃ i, i ∈ [Instr.qclr, .pack, .clutld, .parse] ∧ a = .writeReg 0x00 (encode i) ∧
            t.statusErr = 0)
      (clears → (∀ k, t.cacheCell k = none) ∧ t.qcnt = 0) ∧
        (¬clears → ∀ k i, s.cacheCell k = some i → t.cacheCell k = some i)

/-! ## Color Codec -/

/-- `DEC16` (40_color_codec R131) with the decoded word written out as an integer: 8 times each 5-bit field,
alpha 0 only for code 0 with `TE` set. Nothing but `RES` and `STATUS` changes, and no state faults. -/
def Obligations.Dec16WritesTheDecodedPixel : Prop :=
  encode .dec16 = 0x01 ∧ ∀ s : State, ∃ v : Word,
    exec .dec16 s = .next { s with res := v, status := 0 } ∧
      let c := s.opa.toNat % 2 ^ 16
      v.toNat = 8 * (c % 32) + 2 ^ 8 * (8 * (c / 32 % 32)) + 2 ^ 16 * (8 * (c / 1024 % 32)) +
        2 ^ 24 * (if s.ctrl.toNat % 2 = 1 ∧ c = 0 then 0 else 255)

/-- `ENC16` (40_color_codec R134) with the code written out as an integer: each channel divided by 8, bit 15
set unless alpha is 255. Nothing but `RES` and `STATUS` changes, and `CTRL.TE` is not read. -/
def Obligations.Enc16WritesTheEncodedCode : Prop :=
  encode .enc16 = 0x02 ∧ ∀ s : State, ∃ v : Word,
    exec .enc16 s = .next { s with res := v, status := 0 } ∧
      (∀ c : Word, exec .enc16 { s with ctrl := c } =
        .next { s with ctrl := c, res := v, status := 0 }) ∧
      let px := s.opa.toNat
      v.toNat = px % 256 / 8 + 32 * (px / 2 ^ 8 % 256 / 8) + 1024 * (px / 2 ^ 16 % 256 / 8) +
        (if px / 2 ^ 24 = 255 then 0 else 2 ^ 15)

/-- The round trip of a code through `DEC16` and `ENC16` (40_color_codec R135): `STP` is lost, and code 0
comes back as 0x8000 when `TE` is set. -/
def Obligations.CodeRoundTripLosesOnlyStp : Prop :=
  ∀ s : State, ∃ m t : State,
    exec .dec16 s = .next m ∧ exec .enc16 { m with opa := m.res } = .next t ∧
      t.res.toNat =
        if s.ctrl.toNat % 2 = 1 ∧ s.opa.toNat % 2 ^ 16 = 0 then 0x8000 else s.opa.toNat % 2 ^ 15

/-- The round trip of a pixel through `encode16` and `decode16` (40_color_codec R137): each channel loses its
low three bits; alpha comes back 255 but for an opaque pixel with all channels below 8 under `TE`. -/
def Obligations.PixelRoundTripTruncatesChannels : Prop :=
  ∀ (px : RGBA) (te : Bool),
    let d := decode16 (encode16 px) te
    d.r.toNat = px.r.toNat - px.r.toNat % 8 ∧ d.g.toNat = px.g.toNat - px.g.toNat % 8 ∧
      d.b.toNat = px.b.toNat - px.b.toNat % 8 ∧
      d.a.toNat =
        if te = true ∧ px.a.toNat = 255 ∧ px.r.toNat < 8 ∧ px.g.toNat < 8 ∧ px.b.toNat < 8 then 0
        else 255

/-! ## Palette Page Manager -/

/-- `CLUTLD` (41_palette_pages R155): faults in order, then the entries copied out of `BUF`, little-endian,
`CLEN` the count, the cache empty, and nothing else changed. -/
def Obligations.ClutldCopiesTheEntries : Prop :=
  encode .clutld = 0x10 ∧ ∀ s : State,
    let n := s.clutn.toNat
    let a := s.paloff.toNat
    let fits := n = 0 ∨ a + 2 * n ≤ min s.slen.toNat s.params.bufSize
    (s.params.clutMax < n → exec .clutld s = .next { s with status := 9 }) ∧
      (n ≤ s.params.clutMax → ¬fits → exec .clutld s = .next { s with status := 5 }) ∧
      (n ≤ s.params.clutMax → fits →
        ∃ t, exec .clutld s = .next t ∧
          t = { s with clut := t.clut, clen := s.clutn, cache := [], qcnt := 0, status := 0 } ∧
          t.clut.length = n ∧
          ∀ k < n, (t.clutEntry k).toNat =
            (s.bufByte (a + 2 * k)).toNat + 256 * (s.bufByte (a + 2 * k + 1)).toNat)

/-- `SPLIT` (41_palette_pages R157): the checks of `checkPages` in order, then `RES` the page count and
nothing else changed. -/
def Obligations.SplitCountsThePages : Prop :=
  encode .split = 0x11 ∧ ∀ s : State,
    (∀ c, pagesFault s = some c → exec .split s = .next { s with status := BitVec.ofNat 32 c }) ∧
      (pagesFault s = none →
        exec .split s =
          .next { s with
            res := BitVec.ofNat 32 (s.clen.toNat / pageSizeNumber (formatNumber s)), status := 0 })

/-- `PAGERD` (41_palette_pages R159): the checks of `checkPage`, then the index, then `RES` the colour of the
entry and nothing else changed. -/
def Obligations.PagerdReadsTheEntry : Prop :=
  encode .pagerd = 0x12 ∧ ∀ s : State,
    let ps := pageSizeNumber (formatNumber s)
    (∀ c, pageFault s = some c → exec .pagerd s = .next { s with status := BitVec.ofNat 32 c }) ∧
      (pageFault s = none → ps ≤ s.opa.toNat → exec .pagerd s = .next { s with status := 7 }) ∧
      (pageFault s = none → s.opa.toNat < ps →
        exec .pagerd s =
          .next { s with
            res := (decode16 (s.clutEntry (s.page.toNat * ps + s.opa.toNat))
              (s.ctrl.getLsbD 0)).word
            status := 0 })

/-- `CLUTST` (41_palette_pages R161): `DestRange` where the block does not fit, else the `CLEN` entries in
storage order, low byte first, at `DST`, and nothing else changed. -/
def Obligations.ClutstWritesTheRawBlock : Prop :=
  encode .clutst = 0x13 ∧ ∀ s : State,
    let n := s.clen.toNat
    let d := s.dst.toNat
    let fits := n = 0 ∨ d + 2 * n ≤ s.params.bufSize
    (¬fits → exec .clutst s = .next { s with status := 8 }) ∧
      (fits →
        ∃ t, exec .clutst s = .next t ∧ t = { s with buf := t.buf, status := 0 } ∧
          (∀ k < n, (t.bufByte (d + 2 * k)).toNat = (s.clutEntry k).toNat % 256 ∧
            (t.bufByte (d + 2 * k + 1)).toNat = (s.clutEntry k).toNat / 256) ∧
          ∀ a, a < d ∨ d + 2 * n ≤ a → t.bufByte a = s.bufByte a)

/-- `CLUTLD` followed by `CLUTST` copies `2*CLUTN` bytes unchanged (41_palette_pages R161). -/
def Obligations.ClutLoadThenStoreCopiesTheBytes : Prop :=
  ∀ s : State,
    let n := s.clutn.toNat
    n ≤ s.params.clutMax →
    (n = 0 ∨ s.paloff.toNat + 2 * n ≤ min s.slen.toNat s.params.bufSize) →
    (n = 0 ∨ s.dst.toNat + 2 * n ≤ s.params.bufSize) →
      ∃ m t, RunsTo .clutld .clutst s m t ∧ t.statusErr = 0 ∧
        (∀ j < 2 * n, t.bufByte (s.dst.toNat + j) = s.bufByte (s.paloff.toNat + j)) ∧
        ∀ a, a < s.dst.toNat ∨ s.dst.toNat + 2 * n ≤ a → t.bufByte a = s.bufByte a

/-- Joining the pages of the split gives back the raw entries in order (41_palette_pages R160, R162). -/
def Obligations.JoinedPagesAreTheRawEntries : Prop :=
  ∀ (s : State) (f : IndexedFormat), ClutCounted s → s.format = .plane (.indexed f) →
    s.wholePages f = true →
      (List.range (s.pageCount f)).flatMap
          (fun p => (List.range f.pageSize).map (fun i => s.clutEntry (p * f.pageSize + i))) =
        s.clut

/-- The views `PAGECNT` and `PTRANS` (10_state R48, R49), the latter with the first transparent entry said
by the raw code: under `TE`, the least index whose entry is 0. -/
def Obligations.PageViewsFollowTheClut : Prop :=
  ∀ s : State,
    let ps := pageSizeNumber (formatNumber s)
    let zero : Nat → Prop := fun i =>
      s.ctrl.toNat % 2 = 1 ∧ s.clutEntry (s.page.toNat * ps + i) = 0
    (s.readReg .pagecnt).toNat = (if pagesFault s = none then s.clen.toNat / ps else 0) ∧
      (pageFault s ≠ none → s.readReg .ptrans = 0) ∧
      (pageFault s = none → (∀ i < ps, ¬zero i) → s.readReg .ptrans = 0) ∧
      (∀ i < ps, pageFault s = none → zero i → (∀ j < i, ¬zero j) →
        (s.readReg .ptrans).toNat = 0x100 + i)

/-! ## Structure sequencer and control -/

/-- `NOP`, the all-zero word, clears `STATUS` and does nothing else but that its issue stores 0 in `CMD`
(44_structure_and_control R260). -/
def Obligations.NopOnlyClearsStatus : Prop :=
  encode .nop = 0x00 ∧ ∀ s : State, exec .nop s = .next { s with status := 0 } ∧
    ∀ rest, s.pending = .writeReg 0x00 0x00 :: rest →
      step s = .next { s with pending := rest, cmd := 0, status := 0 }

/-- `GEOM` (44_structure_and_control R258, R256): faults in order, then `TRUEW` the corrected width and
nothing else changed. -/
def Obligations.GeomWritesTheCorrectedWidth : Prop :=
  encode .geom = 0x21 ∧ ∀ s : State,
    let f := formatNumber s
    (5 ≤ f → exec .geom s = .next { s with status := 2 }) ∧
      (f = 4 → exec .geom s = .next { s with status := 4 }) ∧
      (f ≤ 3 → ∃ w : Word,
        exec .geom s = .next { s with truew := w, status := 0 } ∧
          w.toNat = widthNumber f (s.pixrectWH.toNat % 2 ^ 16))

/-- The faults of `PARSE`, in the order of the twelve checks (44_structure_and_control R253): the first that
fails decides the code, and nothing else changes; where all pass it completes. -/
def Obligations.ParseFaultsInWalkOrder : Prop :=
  ∀ s : State,
    (∀ c, parseFault s = some c → exec .parse s = .next { s with status := BitVec.ofNat 32 c }) ∧
      (parseFault s = none → ∃ t, exec .parse s = .next t ∧ t.statusErr = 0)

/-- A `PARSE` that passes its checks writes the listed registers from the structure's fields at their places
in `BUF`, copies the CLUT entries, empties the cache, and changes nothing else
(44_structure_and_control R252, 30_encoding R108). -/
def Obligations.ParseLoadsTheStructure : Prop :=
  ∀ s : State, parseFault s = none →
    let p := s.spos.toNat
    let hc := headerHasClut s
    let n := headerEntries s
    let q := headerPixelBlock s
    ∃ t, exec .parse s = .next t ∧
      t = { s with
        mode := BitVec.ofNat 32 (headerMode s % 16)
        clutsize := if hc then BitVec.ofNat 32 (headerClutSize s) else 0
        clutrectXY := if hc then BitVec.ofNat 32 (s.bufRead (p + 12) 4) else 0
        clutrectWH := if hc then BitVec.ofNat 32 (s.bufRead (p + 16) 4) else 0
        paloff := if hc then BitVec.ofNat 32 (p + 20) else 0
        clutn := BitVec.ofNat 32 n
        clen := BitVec.ofNat 32 n
        clut := t.clut
        pixsize := BitVec.ofNat 32 (s.bufRead q 4)
        pixrectXY := BitVec.ofNat 32 (s.bufRead (q + 4) 4)
        pixrectWH := BitVec.ofNat 32 (s.bufRead (q + 8) 4)
        truew := BitVec.ofNat 32 (headerWidth s)
        pixoff := BitVec.ofNat 32 (q + 12)
        cache := [], qcnt := 0, status := 0 } ∧
      t.clut.length = n ∧ ∀ k < n, (t.clutEntry k).toNat = s.bufRead (p + 20 + 2 * k) 2

/-- The view `TRUEBYTES` (10_state R50): the plane size in 36 bits over two registers, 0 for a format
without a plane layout. -/
def Obligations.TrueBytesViewIsThePlaneSize : Prop :=
  ∀ s : State,
    (s.readReg .truebytesLo).toNat + 2 ^ 32 * (s.readReg .truebytesHi).toNat =
        (if formatNumber s ≤ 3 then
          sizeNumber (formatNumber s) (s.truew.toNat % 2 ^ 18) (s.pixrectWH.toNat / 2 ^ 16)
        else 0) ∧
      (s.readReg .truebytesHi).toNat < 2 ^ 4

/-! ## Pixel Plane Codec -/

/-- The faults of `UNPACK` in the order of its rule, with nothing else changed; where all checks pass it
completes (42_pixel_plane R186). -/
def Obligations.UnpackFaultsInCheckOrder : Prop :=
  ∀ s : State,
    (∀ c, unpackFault s = some c → exec .unpack s = .next { s with status := BitVec.ofNat 32 c }) ∧
      (unpackFault s = none → ∃ t, exec .unpack s = .next t ∧ t.statusErr = 0)

/-- `UNPACK` of the direct formats (42_pixel_plane R183, R184, R186): the pixel in column `x` of row `y`
stands at `IMGBASE + y*W + x`, from two bytes (Direct15) or three (Direct24) of the plane; every other
cell and every other piece of state but `IMGW`, `IMGH`, `STATUS` is unchanged. -/
def Obligations.UnpackDirectDecodesEveryPixel : Prop :=
  ∀ s : State, unpackFault s = none → formatNumber s = 2 ∨ formatNumber s = 3 →
    ∃ t, exec .unpack s = .next t ∧
      t = { s with
        img := t.img, imgw := BitVec.ofNat 32 s.planeWidth
        imgh := BitVec.ofNat 32 s.planeHeight, status := 0 } ∧
      (∀ x y, x < s.planeWidth → y < s.planeHeight →
        let i := y * s.planeWidth + x
        let a := s.pixoff.toNat + (if formatNumber s = 2 then 2 else 3) * i
        RGBA.ofWord (t.imgCell (s.imgbase.toNat + i)) =
          if formatNumber s = 2 then
            decode16 (BitVec.ofNat 16 (s.bufRead a 2)) (s.ctrl.getLsbD 0)
          else { r := s.bufByte a, g := s.bufByte (a + 1), b := s.bufByte (a + 2), a := 255 }) ∧
      ∀ j, j < s.imgbase.toNat ∨ s.imgbase.toNat + s.planeWidth * s.planeHeight ≤ j →
        t.imgCell j = s.imgCell j

/-- `UNPACK` of the indexed formats (42_pixel_plane R181, R182, R186): the pixel in column `x` of row `y` is
the colour, in the active page, of its index, which is a byte of the plane (Indexed8) or a nibble, the
low one for even `x` (Indexed4); every other cell and every other piece of state but `IMGW`, `IMGH`,
`STATUS` is unchanged. -/
def Obligations.UnpackIndexedLooksUpEveryPixel : Prop :=
  ∀ s : State, unpackFault s = none → formatNumber s ≤ 1 →
    let ps := pageSizeNumber (formatNumber s)
    ∃ t, exec .unpack s = .next t ∧
      t = { s with
        img := t.img, imgw := BitVec.ofNat 32 s.planeWidth
        imgh := BitVec.ofNat 32 s.planeHeight, status := 0 } ∧
      (∀ x y, x < s.planeWidth → y < s.planeHeight →
        let i := y * s.planeWidth + x
        let byte := (s.bufByte (s.pixoff.toNat + (if formatNumber s = 0 then i / 2 else i))).toNat
        let index := if formatNumber s = 1 then byte
          else if x % 2 = 0 then byte % 16 else byte / 16
        RGBA.ofWord (t.imgCell (s.imgbase.toNat + i)) =
          decode16 (s.clutEntry (s.page.toNat * ps + index)) (s.ctrl.getLsbD 0)) ∧
      ∀ j, j < s.imgbase.toNat ∨ s.imgbase.toNat + s.planeWidth * s.planeHeight ≤ j →
        t.imgCell j = s.imgCell j

/-- The faults of `PACK` in the order of its rule, with nothing else changed, the cache included; where all
checks pass it completes (42_pixel_plane R194). -/
def Obligations.PackFaultsInCheckOrder : Prop :=
  ∀ s : State,
    (∀ c, packFault s = some c → exec .pack s = .next { s with status := BitVec.ofNat 32 c }) ∧
      (packFault s = none → ∃ t, exec .pack s = .next t ∧ t.statusErr = 0)

/-- `PACK` of Direct15 (42_pixel_plane R194, R195, R197): two bytes a pixel, low byte first, the cache left
empty, and nothing else changed but `STATUS`. -/
def Obligations.PackDirect15EncodesEveryPixel : Prop :=
  ∀ s : State, packFault s = none → formatNumber s = 2 →
    let n := s.planeWidth * s.planeHeight
    ∃ t, exec .pack s = .next t ∧
      t = { s with buf := t.buf, cache := [], qcnt := 0, status := 0 } ∧
      (∀ i < n,
        (t.bufByte (s.dst.toNat + 2 * i)).toNat +
            256 * (t.bufByte (s.dst.toNat + 2 * i + 1)).toNat =
          (encode16 (imagePixel s i)).toNat) ∧
      ∀ a, a < s.dst.toNat ∨ s.dst.toNat + 2 * n ≤ a → t.bufByte a = s.bufByte a

/-- `PACK` of the indexed formats (42_pixel_plane R194 to R197, 43_quantizer R224, R230): the index of a pixel
is what steps 2 and 3 of the quantizer give for the FIRST pixel of the image with its key, whatever the
cache held before; the indices stand one a byte (Indexed8) or two, the even position in the low nibble
(Indexed4); the cache is left empty, and nothing else changes but `STATUS`. -/
def Obligations.PackIndexedUsesTheFirstPixelOfEachKey : Prop :=
  ∀ (s : State) (f : IndexedFormat), packFault s = none → s.format = .plane (.indexed f) →
    let n := s.planeWidth * s.planeHeight
    let d := s.dst.toNat
    let size := if f = .indexed4 then n / 2 else n
    ∃ (t : State) (index : Nat → Nat), exec .pack s = .next t ∧
      t = { s with buf := t.buf, cache := [], qcnt := 0, status := 0 } ∧
      (∀ i < n, index i < f.pageSize ∧ ∃ j ≤ i,
        encode16 (imagePixel s j) = encode16 (imagePixel s i) ∧
        (∀ k < j, encode16 (imagePixel s k) ≠ encode16 (imagePixel s i)) ∧
        index i = s.resolve f s.page.toNat (imagePixel s j)) ∧
      (f = .indexed8 → ∀ i < n, (t.bufByte (d + i)).toNat = index i) ∧
      (f = .indexed4 → ∀ j < n / 2,
        (t.bufByte (d + j)).toNat = index (2 * j) + 16 * index (2 * j + 1)) ∧
      ∀ a, a < d ∨ d + size ≤ a → t.bufByte a = s.bufByte a

/-- The bytes `PACK` writes depend only on the format, `TE`, `W`, `H`, the `N` image cells and, for an indexed
format, the active page's raw entries (42_pixel_plane R198): two states that agree on these, and may
differ in everything else, write the same plane. -/
def Obligations.PackDependsOnlyOnItsOperands : Prop :=
  ∀ s s' t t' : State, exec .pack s = .next t → exec .pack s' = .next t' →
    t.statusErr = 0 → t'.statusErr = 0 →
    s.format = s'.format → s.te = s'.te → s.planeWidth = s'.planeWidth →
    s.planeHeight = s'.planeHeight →
    (∀ i < s.pixelCount, imagePixel s i = imagePixel s' i) →
    (∀ f, s.format = .plane (.indexed f) → ∀ i < f.pageSize,
      s.clutEntry (s.page.toNat * f.pageSize + i) =
        s'.clutEntry (s'.page.toNat * f.pageSize + i)) →
      ∀ j < sizeNumber (formatNumber s) s.planeWidth s.planeHeight,
        t.bufByte (s.dst.toNat + j) = t'.bufByte (s'.dst.toNat + j)

/-- The image `UNPACK` writes depends only on the format, `TE`, `W`, `H`, the plane bytes and, for an indexed
format, the active page's raw entries (42_pixel_plane R187). -/
def Obligations.UnpackDependsOnlyOnItsOperands : Prop :=
  ∀ s s' t t' : State, exec .unpack s = .next t → exec .unpack s' = .next t' →
    t.statusErr = 0 → t'.statusErr = 0 →
    s.format = s'.format → s.te = s'.te → s.planeWidth = s'.planeWidth →
    s.planeHeight = s'.planeHeight →
    (∀ j < sizeNumber (formatNumber s) s.planeWidth s.planeHeight,
      s.bufByte (s.pixoff.toNat + j) = s'.bufByte (s'.pixoff.toNat + j)) →
    (∀ f, s.format = .plane (.indexed f) → ∀ i < f.pageSize,
      s.clutEntry (s.page.toNat * f.pageSize + i) =
        s'.clutEntry (s'.page.toNat * f.pageSize + i)) →
      t.imgw = t'.imgw ∧ t.imgh = t'.imgh ∧
        ∀ i < s.pixelCount,
          t.imgCell (s.imgbase.toNat + i) = t'.imgCell (s'.imgbase.toNat + i)

/-- `UNPACK` then `PACK` with the same page gives back an indexed plane byte for byte, for every plane, when
the low 15 bits of the page's entries are pairwise distinct (42_pixel_plane R199, its "in
particular"). -/
def Obligations.IndexedRoundTripOfADistinctPage : Prop :=
  ∀ (s : State) (f : IndexedFormat), s.format = .plane (.indexed f) → unpackFault s = none →
    (sizeNumber (formatNumber s) s.planeWidth s.planeHeight = 0 ∨
      s.dst.toNat + sizeNumber (formatNumber s) s.planeWidth s.planeHeight ≤ s.params.bufSize) →
    (∀ i < f.pageSize, ∀ j < f.pageSize, i ≠ j →
      (s.clutEntry (s.page.toNat * f.pageSize + i)).toNat % 2 ^ 15 ≠
        (s.clutEntry (s.page.toNat * f.pageSize + j)).toNat % 2 ^ 15) →
      ∃ m t, RunsTo .unpack .pack s m t ∧ t.statusErr = 0 ∧
        ∀ j < sizeNumber (formatNumber s) s.planeWidth s.planeHeight,
          t.bufByte (s.dst.toNat + j) = s.bufByte (s.pixoff.toNat + j)

/-- `UNPACK` then `PACK` of a Direct15 plane gives each code with `STP` cleared, but 0x8000 for code 0 under
`TE` (42_pixel_plane R200). -/
def Obligations.Direct15RoundTripLosesOnlyStp : Prop :=
  ∀ s : State, formatNumber s = 2 → unpackFault s = none →
    let n := s.planeWidth * s.planeHeight
    (n = 0 ∨ s.dst.toNat + 2 * n ≤ s.params.bufSize) →
      ∃ m t, RunsTo .unpack .pack s m t ∧ t.statusErr = 0 ∧
        ∀ i < n,
          let c := s.bufRead (s.pixoff.toNat + 2 * i) 2
          t.bufRead (s.dst.toNat + 2 * i) 2 =
            if s.ctrl.toNat % 2 = 1 ∧ c = 0 then 0x8000 else c % 2 ^ 15

/-! ## Quantizer -/

/-- `QCLR` empties the cache, zeroes `QCNT`, and changes nothing else but `STATUS` (43_quantizer R223). -/
def Obligations.QclrEmptiesTheCache : Prop :=
  encode .qclr = 0x40 ∧ ∀ s : State, ∃ t, exec .qclr s = .next t ∧
    t = { s with cache := t.cache, qcnt := 0, status := 0 } ∧ ∀ k, t.cacheCell k = none

/-- The faults of `QMATCH` are those of `checkPage`, and nothing else changes, the cache included
(43_quantizer R226, 41_palette_pages R156). -/
def Obligations.QmatchFaultsInCheckOrder : Prop :=
  ∀ (s : State) (c : Nat), pageFault s = some c →
    exec .qmatch s = .next { s with status := BitVec.ofNat 32 c }

/-- `QMATCH` of a pixel whose key is cached: the cached index, whatever the pixel's alpha and exact channels,
`HIT` set, and nothing else changed (43_quantizer R224 step 1, R226, R227). -/
def Obligations.QmatchHitReturnsTheCachedIndex : Prop :=
  ∀ (s : State) (i : Byte), pageFault s = none →
    s.cacheCell (encode16 (RGBA.ofWord s.opa)) = some i →
      exec .qmatch s = .next { s with res := BitVec.ofNat 32 i.toNat, status := 0x100 }

/-- `QMATCH` of a pixel whose key is not cached (43_quantizer R224 steps 2 to 4, R225 to R228): for alpha 0
the page's first transparent entry or 0, else the least index at least distance over all entries;
the index goes to `RES` and into the key's cell, `QCNT` grows by 1, and nothing else changes. -/
def Obligations.QmatchMissResolvesAndCaches : Prop :=
  ∀ s : State, pageFault s = none →
    let px := RGBA.ofWord s.opa
    let ps := pageSizeNumber (formatNumber s)
    let colour : Nat → RGBA := fun i =>
      decode16 (s.clutEntry (s.page.toNat * ps + i)) (s.ctrl.getLsbD 0)
    s.cacheCell (encode16 px) = none →
      ∃ (t : State) (i : Nat), exec .qmatch s = .next t ∧ i < ps ∧
        t = { s with
          res := BitVec.ofNat 32 i, status := 0, cache := t.cache, qcnt := s.qcnt + 1 } ∧
        t.cacheCell (encode16 px) = some (BitVec.ofNat 8 i) ∧
        (∀ k, k ≠ encode16 px → t.cacheCell k = s.cacheCell k) ∧
        (px.a = 0 →
          ((colour i).a = 0 ∧ ∀ j < i, (colour j).a ≠ 0) ∨
            (i = 0 ∧ ∀ j < ps, (colour j).a ≠ 0)) ∧
        (px.a ≠ 0 → ∀ j < ps,
          squaredDistance px (colour i) ≤ squaredDistance px (colour j) ∧
            (j < i → squaredDistance px (colour i) < squaredDistance px (colour j)))

/-- A second `QMATCH` with an operand of the same key is a hit and gives the same index, whatever its alpha
and exact channels (43_quantizer R224, R230). -/
def Obligations.QmatchAgainWithTheSameKeyHits : Prop :=
  ∀ (s : State) (v : Word), pageFault s = none →
    encode16 (RGBA.ofWord v) = encode16 (RGBA.ofWord s.opa) →
      ∃ m t, exec .qmatch s = .next m ∧ exec .qmatch { m with opa := v } = .next t ∧
        t.statusHit = true ∧ t.statusErr = 0 ∧ t.res = m.res ∧ t.cache = m.cache ∧
        t.qcnt = m.qcnt

/-- Every squared distance is at most 195075, and the block's distance is the Euclidean one, squared
(43_quantizer R225, R233). -/
def Obligations.DistanceIsEuclideanAndBounded : Prop :=
  ∀ px e : RGBA, (dist2 px e : Int) = squaredDistance px e ∧ dist2 px e ≤ 195075
end

