-- ==== Sys2Proof/Laws/State.lean ====
section
/-!
SUPPORT. For every named update of the state, what each field is after it: one lemma per field per update,
true by definition, so that no later proof unfolds a record update.
-/

namespace Sys2Proof.Machine

/-! ## `setStatus` -/

@[simp] theorem setStatus_params (s : State) (v : Word) : (s.setStatus v).params = s.params := rfl
@[simp] theorem setStatus_pending (s : State) (v : Word) : (s.setStatus v).pending = s.pending := rfl
@[simp] theorem setStatus_replies (s : State) (v : Word) : (s.setStatus v).replies = s.replies := rfl
@[simp] theorem setStatus_epoch (s : State) (v : Word) : (s.setStatus v).epoch = s.epoch := rfl
@[simp] theorem setStatus_cmd (s : State) (v : Word) : (s.setStatus v).cmd = s.cmd := rfl
@[simp] theorem setStatus_status (s : State) (v : Word) : (s.setStatus v).status = v := rfl
@[simp] theorem setStatus_ctrl (s : State) (v : Word) : (s.setStatus v).ctrl = s.ctrl := rfl
@[simp] theorem setStatus_mode (s : State) (v : Word) : (s.setStatus v).mode = s.mode := rfl
@[simp] theorem setStatus_opa (s : State) (v : Word) : (s.setStatus v).opa = s.opa := rfl
@[simp] theorem setStatus_res (s : State) (v : Word) : (s.setStatus v).res = s.res := rfl
@[simp] theorem setStatus_spos (s : State) (v : Word) : (s.setStatus v).spos = s.spos := rfl
@[simp] theorem setStatus_slen (s : State) (v : Word) : (s.setStatus v).slen = s.slen := rfl
@[simp] theorem setStatus_paloff (s : State) (v : Word) : (s.setStatus v).paloff = s.paloff := rfl
@[simp] theorem setStatus_clutn (s : State) (v : Word) : (s.setStatus v).clutn = s.clutn := rfl
@[simp] theorem setStatus_clen (s : State) (v : Word) : (s.setStatus v).clen = s.clen := rfl
@[simp] theorem setStatus_page (s : State) (v : Word) : (s.setStatus v).page = s.page := rfl
@[simp] theorem setStatus_clutrectXY (s : State) (v : Word) : (s.setStatus v).clutrectXY = s.clutrectXY := rfl
@[simp] theorem setStatus_clutrectWH (s : State) (v : Word) : (s.setStatus v).clutrectWH = s.clutrectWH := rfl
@[simp] theorem setStatus_pixrectXY (s : State) (v : Word) : (s.setStatus v).pixrectXY = s.pixrectXY := rfl
@[simp] theorem setStatus_pixrectWH (s : State) (v : Word) : (s.setStatus v).pixrectWH = s.pixrectWH := rfl
@[simp] theorem setStatus_clutsize (s : State) (v : Word) : (s.setStatus v).clutsize = s.clutsize := rfl
@[simp] theorem setStatus_pixsize (s : State) (v : Word) : (s.setStatus v).pixsize = s.pixsize := rfl
@[simp] theorem setStatus_truew (s : State) (v : Word) : (s.setStatus v).truew = s.truew := rfl
@[simp] theorem setStatus_pixoff (s : State) (v : Word) : (s.setStatus v).pixoff = s.pixoff := rfl
@[simp] theorem setStatus_imgbase (s : State) (v : Word) : (s.setStatus v).imgbase = s.imgbase := rfl
@[simp] theorem setStatus_imgw (s : State) (v : Word) : (s.setStatus v).imgw = s.imgw := rfl
@[simp] theorem setStatus_imgh (s : State) (v : Word) : (s.setStatus v).imgh = s.imgh := rfl
@[simp] theorem setStatus_dst (s : State) (v : Word) : (s.setStatus v).dst = s.dst := rfl
@[simp] theorem setStatus_qcnt (s : State) (v : Word) : (s.setStatus v).qcnt = s.qcnt := rfl
@[simp] theorem setStatus_buf (s : State) (v : Word) : (s.setStatus v).buf = s.buf := rfl
@[simp] theorem setStatus_img (s : State) (v : Word) : (s.setStatus v).img = s.img := rfl
@[simp] theorem setStatus_clut (s : State) (v : Word) : (s.setStatus v).clut = s.clut := rfl
@[simp] theorem setStatus_cache (s : State) (v : Word) : (s.setStatus v).cache = s.cache := rfl

/-! ## `setRes` -/

@[simp] theorem setRes_params (s : State) (v : Word) : (s.setRes v).params = s.params := rfl
@[simp] theorem setRes_pending (s : State) (v : Word) : (s.setRes v).pending = s.pending := rfl
@[simp] theorem setRes_replies (s : State) (v : Word) : (s.setRes v).replies = s.replies := rfl
@[simp] theorem setRes_epoch (s : State) (v : Word) : (s.setRes v).epoch = s.epoch := rfl
@[simp] theorem setRes_cmd (s : State) (v : Word) : (s.setRes v).cmd = s.cmd := rfl
@[simp] theorem setRes_status (s : State) (v : Word) : (s.setRes v).status = s.status := rfl
@[simp] theorem setRes_ctrl (s : State) (v : Word) : (s.setRes v).ctrl = s.ctrl := rfl
@[simp] theorem setRes_mode (s : State) (v : Word) : (s.setRes v).mode = s.mode := rfl
@[simp] theorem setRes_opa (s : State) (v : Word) : (s.setRes v).opa = s.opa := rfl
@[simp] theorem setRes_res (s : State) (v : Word) : (s.setRes v).res = v := rfl
@[simp] theorem setRes_spos (s : State) (v : Word) : (s.setRes v).spos = s.spos := rfl
@[simp] theorem setRes_slen (s : State) (v : Word) : (s.setRes v).slen = s.slen := rfl
@[simp] theorem setRes_paloff (s : State) (v : Word) : (s.setRes v).paloff = s.paloff := rfl
@[simp] theorem setRes_clutn (s : State) (v : Word) : (s.setRes v).clutn = s.clutn := rfl
@[simp] theorem setRes_clen (s : State) (v : Word) : (s.setRes v).clen = s.clen := rfl
@[simp] theorem setRes_page (s : State) (v : Word) : (s.setRes v).page = s.page := rfl
@[simp] theorem setRes_clutrectXY (s : State) (v : Word) : (s.setRes v).clutrectXY = s.clutrectXY := rfl
@[simp] theorem setRes_clutrectWH (s : State) (v : Word) : (s.setRes v).clutrectWH = s.clutrectWH := rfl
@[simp] theorem setRes_pixrectXY (s : State) (v : Word) : (s.setRes v).pixrectXY = s.pixrectXY := rfl
@[simp] theorem setRes_pixrectWH (s : State) (v : Word) : (s.setRes v).pixrectWH = s.pixrectWH := rfl
@[simp] theorem setRes_clutsize (s : State) (v : Word) : (s.setRes v).clutsize = s.clutsize := rfl
@[simp] theorem setRes_pixsize (s : State) (v : Word) : (s.setRes v).pixsize = s.pixsize := rfl
@[simp] theorem setRes_truew (s : State) (v : Word) : (s.setRes v).truew = s.truew := rfl
@[simp] theorem setRes_pixoff (s : State) (v : Word) : (s.setRes v).pixoff = s.pixoff := rfl
@[simp] theorem setRes_imgbase (s : State) (v : Word) : (s.setRes v).imgbase = s.imgbase := rfl
@[simp] theorem setRes_imgw (s : State) (v : Word) : (s.setRes v).imgw = s.imgw := rfl
@[simp] theorem setRes_imgh (s : State) (v : Word) : (s.setRes v).imgh = s.imgh := rfl
@[simp] theorem setRes_dst (s : State) (v : Word) : (s.setRes v).dst = s.dst := rfl
@[simp] theorem setRes_qcnt (s : State) (v : Word) : (s.setRes v).qcnt = s.qcnt := rfl
@[simp] theorem setRes_buf (s : State) (v : Word) : (s.setRes v).buf = s.buf := rfl
@[simp] theorem setRes_img (s : State) (v : Word) : (s.setRes v).img = s.img := rfl
@[simp] theorem setRes_clut (s : State) (v : Word) : (s.setRes v).clut = s.clut := rfl
@[simp] theorem setRes_cache (s : State) (v : Word) : (s.setRes v).cache = s.cache := rfl

/-! ## `setTrueWidth` -/

@[simp] theorem setTrueWidth_params (s : State) (w : Nat) : (s.setTrueWidth w).params = s.params := rfl
@[simp] theorem setTrueWidth_pending (s : State) (w : Nat) : (s.setTrueWidth w).pending = s.pending := rfl
@[simp] theorem setTrueWidth_replies (s : State) (w : Nat) : (s.setTrueWidth w).replies = s.replies := rfl
@[simp] theorem setTrueWidth_epoch (s : State) (w : Nat) : (s.setTrueWidth w).epoch = s.epoch := rfl
@[simp] theorem setTrueWidth_cmd (s : State) (w : Nat) : (s.setTrueWidth w).cmd = s.cmd := rfl
@[simp] theorem setTrueWidth_status (s : State) (w : Nat) : (s.setTrueWidth w).status = s.status := rfl
@[simp] theorem setTrueWidth_ctrl (s : State) (w : Nat) : (s.setTrueWidth w).ctrl = s.ctrl := rfl
@[simp] theorem setTrueWidth_mode (s : State) (w : Nat) : (s.setTrueWidth w).mode = s.mode := rfl
@[simp] theorem setTrueWidth_opa (s : State) (w : Nat) : (s.setTrueWidth w).opa = s.opa := rfl
@[simp] theorem setTrueWidth_res (s : State) (w : Nat) : (s.setTrueWidth w).res = s.res := rfl
@[simp] theorem setTrueWidth_spos (s : State) (w : Nat) : (s.setTrueWidth w).spos = s.spos := rfl
@[simp] theorem setTrueWidth_slen (s : State) (w : Nat) : (s.setTrueWidth w).slen = s.slen := rfl
@[simp] theorem setTrueWidth_paloff (s : State) (w : Nat) : (s.setTrueWidth w).paloff = s.paloff := rfl
@[simp] theorem setTrueWidth_clutn (s : State) (w : Nat) : (s.setTrueWidth w).clutn = s.clutn := rfl
@[simp] theorem setTrueWidth_clen (s : State) (w : Nat) : (s.setTrueWidth w).clen = s.clen := rfl
@[simp] theorem setTrueWidth_page (s : State) (w : Nat) : (s.setTrueWidth w).page = s.page := rfl
@[simp] theorem setTrueWidth_clutrectXY (s : State) (w : Nat) : (s.setTrueWidth w).clutrectXY = s.clutrectXY := rfl
@[simp] theorem setTrueWidth_clutrectWH (s : State) (w : Nat) : (s.setTrueWidth w).clutrectWH = s.clutrectWH := rfl
@[simp] theorem setTrueWidth_pixrectXY (s : State) (w : Nat) : (s.setTrueWidth w).pixrectXY = s.pixrectXY := rfl
@[simp] theorem setTrueWidth_pixrectWH (s : State) (w : Nat) : (s.setTrueWidth w).pixrectWH = s.pixrectWH := rfl
@[simp] theorem setTrueWidth_clutsize (s : State) (w : Nat) : (s.setTrueWidth w).clutsize = s.clutsize := rfl
@[simp] theorem setTrueWidth_pixsize (s : State) (w : Nat) : (s.setTrueWidth w).pixsize = s.pixsize := rfl
@[simp] theorem setTrueWidth_truew (s : State) (w : Nat) : (s.setTrueWidth w).truew = BitVec.ofNat 32 w := rfl
@[simp] theorem setTrueWidth_pixoff (s : State) (w : Nat) : (s.setTrueWidth w).pixoff = s.pixoff := rfl
@[simp] theorem setTrueWidth_imgbase (s : State) (w : Nat) : (s.setTrueWidth w).imgbase = s.imgbase := rfl
@[simp] theorem setTrueWidth_imgw (s : State) (w : Nat) : (s.setTrueWidth w).imgw = s.imgw := rfl
@[simp] theorem setTrueWidth_imgh (s : State) (w : Nat) : (s.setTrueWidth w).imgh = s.imgh := rfl
@[simp] theorem setTrueWidth_dst (s : State) (w : Nat) : (s.setTrueWidth w).dst = s.dst := rfl
@[simp] theorem setTrueWidth_qcnt (s : State) (w : Nat) : (s.setTrueWidth w).qcnt = s.qcnt := rfl
@[simp] theorem setTrueWidth_buf (s : State) (w : Nat) : (s.setTrueWidth w).buf = s.buf := rfl
@[simp] theorem setTrueWidth_img (s : State) (w : Nat) : (s.setTrueWidth w).img = s.img := rfl
@[simp] theorem setTrueWidth_clut (s : State) (w : Nat) : (s.setTrueWidth w).clut = s.clut := rfl
@[simp] theorem setTrueWidth_cache (s : State) (w : Nat) : (s.setTrueWidth w).cache = s.cache := rfl

/-! ## `setImageSize` -/

@[simp] theorem setImageSize_params (s : State) (w h : Nat) : (s.setImageSize w h).params = s.params := rfl
@[simp] theorem setImageSize_pending (s : State) (w h : Nat) : (s.setImageSize w h).pending = s.pending := rfl
@[simp] theorem setImageSize_replies (s : State) (w h : Nat) : (s.setImageSize w h).replies = s.replies := rfl
@[simp] theorem setImageSize_epoch (s : State) (w h : Nat) : (s.setImageSize w h).epoch = s.epoch := rfl
@[simp] theorem setImageSize_cmd (s : State) (w h : Nat) : (s.setImageSize w h).cmd = s.cmd := rfl
@[simp] theorem setImageSize_status (s : State) (w h : Nat) : (s.setImageSize w h).status = s.status := rfl
@[simp] theorem setImageSize_ctrl (s : State) (w h : Nat) : (s.setImageSize w h).ctrl = s.ctrl := rfl
@[simp] theorem setImageSize_mode (s : State) (w h : Nat) : (s.setImageSize w h).mode = s.mode := rfl
@[simp] theorem setImageSize_opa (s : State) (w h : Nat) : (s.setImageSize w h).opa = s.opa := rfl
@[simp] theorem setImageSize_res (s : State) (w h : Nat) : (s.setImageSize w h).res = s.res := rfl
@[simp] theorem setImageSize_spos (s : State) (w h : Nat) : (s.setImageSize w h).spos = s.spos := rfl
@[simp] theorem setImageSize_slen (s : State) (w h : Nat) : (s.setImageSize w h).slen = s.slen := rfl
@[simp] theorem setImageSize_paloff (s : State) (w h : Nat) : (s.setImageSize w h).paloff = s.paloff := rfl
@[simp] theorem setImageSize_clutn (s : State) (w h : Nat) : (s.setImageSize w h).clutn = s.clutn := rfl
@[simp] theorem setImageSize_clen (s : State) (w h : Nat) : (s.setImageSize w h).clen = s.clen := rfl
@[simp] theorem setImageSize_page (s : State) (w h : Nat) : (s.setImageSize w h).page = s.page := rfl
@[simp] theorem setImageSize_clutrectXY (s : State) (w h : Nat) : (s.setImageSize w h).clutrectXY = s.clutrectXY := rfl
@[simp] theorem setImageSize_clutrectWH (s : State) (w h : Nat) : (s.setImageSize w h).clutrectWH = s.clutrectWH := rfl
@[simp] theorem setImageSize_pixrectXY (s : State) (w h : Nat) : (s.setImageSize w h).pixrectXY = s.pixrectXY := rfl
@[simp] theorem setImageSize_pixrectWH (s : State) (w h : Nat) : (s.setImageSize w h).pixrectWH = s.pixrectWH := rfl
@[simp] theorem setImageSize_clutsize (s : State) (w h : Nat) : (s.setImageSize w h).clutsize = s.clutsize := rfl
@[simp] theorem setImageSize_pixsize (s : State) (w h : Nat) : (s.setImageSize w h).pixsize = s.pixsize := rfl
@[simp] theorem setImageSize_truew (s : State) (w h : Nat) : (s.setImageSize w h).truew = s.truew := rfl
@[simp] theorem setImageSize_pixoff (s : State) (w h : Nat) : (s.setImageSize w h).pixoff = s.pixoff := rfl
@[simp] theorem setImageSize_imgbase (s : State) (w h : Nat) : (s.setImageSize w h).imgbase = s.imgbase := rfl
@[simp] theorem setImageSize_imgw (s : State) (w h : Nat) : (s.setImageSize w h).imgw = BitVec.ofNat 32 w := rfl
@[simp] theorem setImageSize_imgh (s : State) (w h : Nat) : (s.setImageSize w h).imgh = BitVec.ofNat 32 h := rfl
@[simp] theorem setImageSize_dst (s : State) (w h : Nat) : (s.setImageSize w h).dst = s.dst := rfl
@[simp] theorem setImageSize_qcnt (s : State) (w h : Nat) : (s.setImageSize w h).qcnt = s.qcnt := rfl
@[simp] theorem setImageSize_buf (s : State) (w h : Nat) : (s.setImageSize w h).buf = s.buf := rfl
@[simp] theorem setImageSize_img (s : State) (w h : Nat) : (s.setImageSize w h).img = s.img := rfl
@[simp] theorem setImageSize_clut (s : State) (w h : Nat) : (s.setImageSize w h).clut = s.clut := rfl
@[simp] theorem setImageSize_cache (s : State) (w h : Nat) : (s.setImageSize w h).cache = s.cache := rfl

/-! ## `writeBuf` -/

@[simp] theorem writeBuf_params (s : State) (a : Nat) (bs : List Byte) : (s.writeBuf a bs).params = s.params := rfl
@[simp] theorem writeBuf_pending (s : State) (a : Nat) (bs : List Byte) : (s.writeBuf a bs).pending = s.pending := rfl
@[simp] theorem writeBuf_replies (s : State) (a : Nat) (bs : List Byte) : (s.writeBuf a bs).replies = s.replies := rfl
@[simp] theorem writeBuf_epoch (s : State) (a : Nat) (bs : List Byte) : (s.writeBuf a bs).epoch = s.epoch := rfl
@[simp] theorem writeBuf_cmd (s : State) (a : Nat) (bs : List Byte) : (s.writeBuf a bs).cmd = s.cmd := rfl
@[simp] theorem writeBuf_status (s : State) (a : Nat) (bs : List Byte) : (s.writeBuf a bs).status = s.status := rfl
@[simp] theorem writeBuf_ctrl (s : State) (a : Nat) (bs : List Byte) : (s.writeBuf a bs).ctrl = s.ctrl := rfl
@[simp] theorem writeBuf_mode (s : State) (a : Nat) (bs : List Byte) : (s.writeBuf a bs).mode = s.mode := rfl
@[simp] theorem writeBuf_opa (s : State) (a : Nat) (bs : List Byte) : (s.writeBuf a bs).opa = s.opa := rfl
@[simp] theorem writeBuf_res (s : State) (a : Nat) (bs : List Byte) : (s.writeBuf a bs).res = s.res := rfl
@[simp] theorem writeBuf_spos (s : State) (a : Nat) (bs : List Byte) : (s.writeBuf a bs).spos = s.spos := rfl
@[simp] theorem writeBuf_slen (s : State) (a : Nat) (bs : List Byte) : (s.writeBuf a bs).slen = s.slen := rfl
@[simp] theorem writeBuf_paloff (s : State) (a : Nat) (bs : List Byte) : (s.writeBuf a bs).paloff = s.paloff := rfl
@[simp] theorem writeBuf_clutn (s : State) (a : Nat) (bs : List Byte) : (s.writeBuf a bs).clutn = s.clutn := rfl
@[simp] theorem writeBuf_clen (s : State) (a : Nat) (bs : List Byte) : (s.writeBuf a bs).clen = s.clen := rfl
@[simp] theorem writeBuf_page (s : State) (a : Nat) (bs : List Byte) : (s.writeBuf a bs).page = s.page := rfl
@[simp] theorem writeBuf_clutrectXY (s : State) (a : Nat) (bs : List Byte) : (s.writeBuf a bs).clutrectXY = s.clutrectXY := rfl
@[simp] theorem writeBuf_clutrectWH (s : State) (a : Nat) (bs : List Byte) : (s.writeBuf a bs).clutrectWH = s.clutrectWH := rfl
@[simp] theorem writeBuf_pixrectXY (s : State) (a : Nat) (bs : List Byte) : (s.writeBuf a bs).pixrectXY = s.pixrectXY := rfl
@[simp] theorem writeBuf_pixrectWH (s : State) (a : Nat) (bs : List Byte) : (s.writeBuf a bs).pixrectWH = s.pixrectWH := rfl
@[simp] theorem writeBuf_clutsize (s : State) (a : Nat) (bs : List Byte) : (s.writeBuf a bs).clutsize = s.clutsize := rfl
@[simp] theorem writeBuf_pixsize (s : State) (a : Nat) (bs : List Byte) : (s.writeBuf a bs).pixsize = s.pixsize := rfl
@[simp] theorem writeBuf_truew (s : State) (a : Nat) (bs : List Byte) : (s.writeBuf a bs).truew = s.truew := rfl
@[simp] theorem writeBuf_pixoff (s : State) (a : Nat) (bs : List Byte) : (s.writeBuf a bs).pixoff = s.pixoff := rfl
@[simp] theorem writeBuf_imgbase (s : State) (a : Nat) (bs : List Byte) : (s.writeBuf a bs).imgbase = s.imgbase := rfl
@[simp] theorem writeBuf_imgw (s : State) (a : Nat) (bs : List Byte) : (s.writeBuf a bs).imgw = s.imgw := rfl
@[simp] theorem writeBuf_imgh (s : State) (a : Nat) (bs : List Byte) : (s.writeBuf a bs).imgh = s.imgh := rfl
@[simp] theorem writeBuf_dst (s : State) (a : Nat) (bs : List Byte) : (s.writeBuf a bs).dst = s.dst := rfl
@[simp] theorem writeBuf_qcnt (s : State) (a : Nat) (bs : List Byte) : (s.writeBuf a bs).qcnt = s.qcnt := rfl
@[simp] theorem writeBuf_buf (s : State) (a : Nat) (bs : List Byte) : (s.writeBuf a bs).buf = Memory.storeRun s.buf a bs := rfl
@[simp] theorem writeBuf_img (s : State) (a : Nat) (bs : List Byte) : (s.writeBuf a bs).img = s.img := rfl
@[simp] theorem writeBuf_clut (s : State) (a : Nat) (bs : List Byte) : (s.writeBuf a bs).clut = s.clut := rfl
@[simp] theorem writeBuf_cache (s : State) (a : Nat) (bs : List Byte) : (s.writeBuf a bs).cache = s.cache := rfl

/-! ## `writeImg` -/

@[simp] theorem writeImg_params (s : State) (i : Nat) (ps : List Word) : (s.writeImg i ps).params = s.params := rfl
@[simp] theorem writeImg_pending (s : State) (i : Nat) (ps : List Word) : (s.writeImg i ps).pending = s.pending := rfl
@[simp] theorem writeImg_replies (s : State) (i : Nat) (ps : List Word) : (s.writeImg i ps).replies = s.replies := rfl
@[simp] theorem writeImg_epoch (s : State) (i : Nat) (ps : List Word) : (s.writeImg i ps).epoch = s.epoch := rfl
@[simp] theorem writeImg_cmd (s : State) (i : Nat) (ps : List Word) : (s.writeImg i ps).cmd = s.cmd := rfl
@[simp] theorem writeImg_status (s : State) (i : Nat) (ps : List Word) : (s.writeImg i ps).status = s.status := rfl
@[simp] theorem writeImg_ctrl (s : State) (i : Nat) (ps : List Word) : (s.writeImg i ps).ctrl = s.ctrl := rfl
@[simp] theorem writeImg_mode (s : State) (i : Nat) (ps : List Word) : (s.writeImg i ps).mode = s.mode := rfl
@[simp] theorem writeImg_opa (s : State) (i : Nat) (ps : List Word) : (s.writeImg i ps).opa = s.opa := rfl
@[simp] theorem writeImg_res (s : State) (i : Nat) (ps : List Word) : (s.writeImg i ps).res = s.res := rfl
@[simp] theorem writeImg_spos (s : State) (i : Nat) (ps : List Word) : (s.writeImg i ps).spos = s.spos := rfl
@[simp] theorem writeImg_slen (s : State) (i : Nat) (ps : List Word) : (s.writeImg i ps).slen = s.slen := rfl
@[simp] theorem writeImg_paloff (s : State) (i : Nat) (ps : List Word) : (s.writeImg i ps).paloff = s.paloff := rfl
@[simp] theorem writeImg_clutn (s : State) (i : Nat) (ps : List Word) : (s.writeImg i ps).clutn = s.clutn := rfl
@[simp] theorem writeImg_clen (s : State) (i : Nat) (ps : List Word) : (s.writeImg i ps).clen = s.clen := rfl
@[simp] theorem writeImg_page (s : State) (i : Nat) (ps : List Word) : (s.writeImg i ps).page = s.page := rfl
@[simp] theorem writeImg_clutrectXY (s : State) (i : Nat) (ps : List Word) : (s.writeImg i ps).clutrectXY = s.clutrectXY := rfl
@[simp] theorem writeImg_clutrectWH (s : State) (i : Nat) (ps : List Word) : (s.writeImg i ps).clutrectWH = s.clutrectWH := rfl
@[simp] theorem writeImg_pixrectXY (s : State) (i : Nat) (ps : List Word) : (s.writeImg i ps).pixrectXY = s.pixrectXY := rfl
@[simp] theorem writeImg_pixrectWH (s : State) (i : Nat) (ps : List Word) : (s.writeImg i ps).pixrectWH = s.pixrectWH := rfl
@[simp] theorem writeImg_clutsize (s : State) (i : Nat) (ps : List Word) : (s.writeImg i ps).clutsize = s.clutsize := rfl
@[simp] theorem writeImg_pixsize (s : State) (i : Nat) (ps : List Word) : (s.writeImg i ps).pixsize = s.pixsize := rfl
@[simp] theorem writeImg_truew (s : State) (i : Nat) (ps : List Word) : (s.writeImg i ps).truew = s.truew := rfl
@[simp] theorem writeImg_pixoff (s : State) (i : Nat) (ps : List Word) : (s.writeImg i ps).pixoff = s.pixoff := rfl
@[simp] theorem writeImg_imgbase (s : State) (i : Nat) (ps : List Word) : (s.writeImg i ps).imgbase = s.imgbase := rfl
@[simp] theorem writeImg_imgw (s : State) (i : Nat) (ps : List Word) : (s.writeImg i ps).imgw = s.imgw := rfl
@[simp] theorem writeImg_imgh (s : State) (i : Nat) (ps : List Word) : (s.writeImg i ps).imgh = s.imgh := rfl
@[simp] theorem writeImg_dst (s : State) (i : Nat) (ps : List Word) : (s.writeImg i ps).dst = s.dst := rfl
@[simp] theorem writeImg_qcnt (s : State) (i : Nat) (ps : List Word) : (s.writeImg i ps).qcnt = s.qcnt := rfl
@[simp] theorem writeImg_buf (s : State) (i : Nat) (ps : List Word) : (s.writeImg i ps).buf = s.buf := rfl
@[simp] theorem writeImg_img (s : State) (i : Nat) (ps : List Word) : (s.writeImg i ps).img = Memory.storeRun s.img i ps := rfl
@[simp] theorem writeImg_clut (s : State) (i : Nat) (ps : List Word) : (s.writeImg i ps).clut = s.clut := rfl
@[simp] theorem writeImg_cache (s : State) (i : Nat) (ps : List Word) : (s.writeImg i ps).cache = s.cache := rfl

/-! ## `loadClut` -/

@[simp] theorem loadClut_params (s : State) (es : List Color16) : (s.loadClut es).params = s.params := rfl
@[simp] theorem loadClut_pending (s : State) (es : List Color16) : (s.loadClut es).pending = s.pending := rfl
@[simp] theorem loadClut_replies (s : State) (es : List Color16) : (s.loadClut es).replies = s.replies := rfl
@[simp] theorem loadClut_epoch (s : State) (es : List Color16) : (s.loadClut es).epoch = s.epoch := rfl
@[simp] theorem loadClut_cmd (s : State) (es : List Color16) : (s.loadClut es).cmd = s.cmd := rfl
@[simp] theorem loadClut_status (s : State) (es : List Color16) : (s.loadClut es).status = s.status := rfl
@[simp] theorem loadClut_ctrl (s : State) (es : List Color16) : (s.loadClut es).ctrl = s.ctrl := rfl
@[simp] theorem loadClut_mode (s : State) (es : List Color16) : (s.loadClut es).mode = s.mode := rfl
@[simp] theorem loadClut_opa (s : State) (es : List Color16) : (s.loadClut es).opa = s.opa := rfl
@[simp] theorem loadClut_res (s : State) (es : List Color16) : (s.loadClut es).res = s.res := rfl
@[simp] theorem loadClut_spos (s : State) (es : List Color16) : (s.loadClut es).spos = s.spos := rfl
@[simp] theorem loadClut_slen (s : State) (es : List Color16) : (s.loadClut es).slen = s.slen := rfl
@[simp] theorem loadClut_paloff (s : State) (es : List Color16) : (s.loadClut es).paloff = s.paloff := rfl
@[simp] theorem loadClut_clutn (s : State) (es : List Color16) : (s.loadClut es).clutn = s.clutn := rfl
@[simp] theorem loadClut_clen (s : State) (es : List Color16) : (s.loadClut es).clen = BitVec.ofNat 32 es.length := rfl
@[simp] theorem loadClut_page (s : State) (es : List Color16) : (s.loadClut es).page = s.page := rfl
@[simp] theorem loadClut_clutrectXY (s : State) (es : List Color16) : (s.loadClut es).clutrectXY = s.clutrectXY := rfl
@[simp] theorem loadClut_clutrectWH (s : State) (es : List Color16) : (s.loadClut es).clutrectWH = s.clutrectWH := rfl
@[simp] theorem loadClut_pixrectXY (s : State) (es : List Color16) : (s.loadClut es).pixrectXY = s.pixrectXY := rfl
@[simp] theorem loadClut_pixrectWH (s : State) (es : List Color16) : (s.loadClut es).pixrectWH = s.pixrectWH := rfl
@[simp] theorem loadClut_clutsize (s : State) (es : List Color16) : (s.loadClut es).clutsize = s.clutsize := rfl
@[simp] theorem loadClut_pixsize (s : State) (es : List Color16) : (s.loadClut es).pixsize = s.pixsize := rfl
@[simp] theorem loadClut_truew (s : State) (es : List Color16) : (s.loadClut es).truew = s.truew := rfl
@[simp] theorem loadClut_pixoff (s : State) (es : List Color16) : (s.loadClut es).pixoff = s.pixoff := rfl
@[simp] theorem loadClut_imgbase (s : State) (es : List Color16) : (s.loadClut es).imgbase = s.imgbase := rfl
@[simp] theorem loadClut_imgw (s : State) (es : List Color16) : (s.loadClut es).imgw = s.imgw := rfl
@[simp] theorem loadClut_imgh (s : State) (es : List Color16) : (s.loadClut es).imgh = s.imgh := rfl
@[simp] theorem loadClut_dst (s : State) (es : List Color16) : (s.loadClut es).dst = s.dst := rfl
@[simp] theorem loadClut_qcnt (s : State) (es : List Color16) : (s.loadClut es).qcnt = s.qcnt := rfl
@[simp] theorem loadClut_buf (s : State) (es : List Color16) : (s.loadClut es).buf = s.buf := rfl
@[simp] theorem loadClut_img (s : State) (es : List Color16) : (s.loadClut es).img = s.img := rfl
@[simp] theorem loadClut_clut (s : State) (es : List Color16) : (s.loadClut es).clut = es := rfl
@[simp] theorem loadClut_cache (s : State) (es : List Color16) : (s.loadClut es).cache = s.cache := rfl

/-! ## `clearCache` -/

@[simp] theorem clearCache_params (s : State) : (s.clearCache).params = s.params := rfl
@[simp] theorem clearCache_pending (s : State) : (s.clearCache).pending = s.pending := rfl
@[simp] theorem clearCache_replies (s : State) : (s.clearCache).replies = s.replies := rfl
@[simp] theorem clearCache_epoch (s : State) : (s.clearCache).epoch = s.epoch := rfl
@[simp] theorem clearCache_cmd (s : State) : (s.clearCache).cmd = s.cmd := rfl
@[simp] theorem clearCache_status (s : State) : (s.clearCache).status = s.status := rfl
@[simp] theorem clearCache_ctrl (s : State) : (s.clearCache).ctrl = s.ctrl := rfl
@[simp] theorem clearCache_mode (s : State) : (s.clearCache).mode = s.mode := rfl
@[simp] theorem clearCache_opa (s : State) : (s.clearCache).opa = s.opa := rfl
@[simp] theorem clearCache_res (s : State) : (s.clearCache).res = s.res := rfl
@[simp] theorem clearCache_spos (s : State) : (s.clearCache).spos = s.spos := rfl
@[simp] theorem clearCache_slen (s : State) : (s.clearCache).slen = s.slen := rfl
@[simp] theorem clearCache_paloff (s : State) : (s.clearCache).paloff = s.paloff := rfl
@[simp] theorem clearCache_clutn (s : State) : (s.clearCache).clutn = s.clutn := rfl
@[simp] theorem clearCache_clen (s : State) : (s.clearCache).clen = s.clen := rfl
@[simp] theorem clearCache_page (s : State) : (s.clearCache).page = s.page := rfl
@[simp] theorem clearCache_clutrectXY (s : State) : (s.clearCache).clutrectXY = s.clutrectXY := rfl
@[simp] theorem clearCache_clutrectWH (s : State) : (s.clearCache).clutrectWH = s.clutrectWH := rfl
@[simp] theorem clearCache_pixrectXY (s : State) : (s.clearCache).pixrectXY = s.pixrectXY := rfl
@[simp] theorem clearCache_pixrectWH (s : State) : (s.clearCache).pixrectWH = s.pixrectWH := rfl
@[simp] theorem clearCache_clutsize (s : State) : (s.clearCache).clutsize = s.clutsize := rfl
@[simp] theorem clearCache_pixsize (s : State) : (s.clearCache).pixsize = s.pixsize := rfl
@[simp] theorem clearCache_truew (s : State) : (s.clearCache).truew = s.truew := rfl
@[simp] theorem clearCache_pixoff (s : State) : (s.clearCache).pixoff = s.pixoff := rfl
@[simp] theorem clearCache_imgbase (s : State) : (s.clearCache).imgbase = s.imgbase := rfl
@[simp] theorem clearCache_imgw (s : State) : (s.clearCache).imgw = s.imgw := rfl
@[simp] theorem clearCache_imgh (s : State) : (s.clearCache).imgh = s.imgh := rfl
@[simp] theorem clearCache_dst (s : State) : (s.clearCache).dst = s.dst := rfl
@[simp] theorem clearCache_qcnt (s : State) : (s.clearCache).qcnt = 0 := rfl
@[simp] theorem clearCache_buf (s : State) : (s.clearCache).buf = s.buf := rfl
@[simp] theorem clearCache_img (s : State) : (s.clearCache).img = s.img := rfl
@[simp] theorem clearCache_clut (s : State) : (s.clearCache).clut = s.clut := rfl
@[simp] theorem clearCache_cache (s : State) : (s.clearCache).cache = [] := rfl

/-! ## `fillCache` -/

@[simp] theorem fillCache_params (s : State) (k : Color16) (i : Byte) : (s.fillCache k i).params = s.params := rfl
@[simp] theorem fillCache_pending (s : State) (k : Color16) (i : Byte) : (s.fillCache k i).pending = s.pending := rfl
@[simp] theorem fillCache_replies (s : State) (k : Color16) (i : Byte) : (s.fillCache k i).replies = s.replies := rfl
@[simp] theorem fillCache_epoch (s : State) (k : Color16) (i : Byte) : (s.fillCache k i).epoch = s.epoch := rfl
@[simp] theorem fillCache_cmd (s : State) (k : Color16) (i : Byte) : (s.fillCache k i).cmd = s.cmd := rfl
@[simp] theorem fillCache_status (s : State) (k : Color16) (i : Byte) : (s.fillCache k i).status = s.status := rfl
@[simp] theorem fillCache_ctrl (s : State) (k : Color16) (i : Byte) : (s.fillCache k i).ctrl = s.ctrl := rfl
@[simp] theorem fillCache_mode (s : State) (k : Color16) (i : Byte) : (s.fillCache k i).mode = s.mode := rfl
@[simp] theorem fillCache_opa (s : State) (k : Color16) (i : Byte) : (s.fillCache k i).opa = s.opa := rfl
@[simp] theorem fillCache_res (s : State) (k : Color16) (i : Byte) : (s.fillCache k i).res = s.res := rfl
@[simp] theorem fillCache_spos (s : State) (k : Color16) (i : Byte) : (s.fillCache k i).spos = s.spos := rfl
@[simp] theorem fillCache_slen (s : State) (k : Color16) (i : Byte) : (s.fillCache k i).slen = s.slen := rfl
@[simp] theorem fillCache_paloff (s : State) (k : Color16) (i : Byte) : (s.fillCache k i).paloff = s.paloff := rfl
@[simp] theorem fillCache_clutn (s : State) (k : Color16) (i : Byte) : (s.fillCache k i).clutn = s.clutn := rfl
@[simp] theorem fillCache_clen (s : State) (k : Color16) (i : Byte) : (s.fillCache k i).clen = s.clen := rfl
@[simp] theorem fillCache_page (s : State) (k : Color16) (i : Byte) : (s.fillCache k i).page = s.page := rfl
@[simp] theorem fillCache_clutrectXY (s : State) (k : Color16) (i : Byte) : (s.fillCache k i).clutrectXY = s.clutrectXY := rfl
@[simp] theorem fillCache_clutrectWH (s : State) (k : Color16) (i : Byte) : (s.fillCache k i).clutrectWH = s.clutrectWH := rfl
@[simp] theorem fillCache_pixrectXY (s : State) (k : Color16) (i : Byte) : (s.fillCache k i).pixrectXY = s.pixrectXY := rfl
@[simp] theorem fillCache_pixrectWH (s : State) (k : Color16) (i : Byte) : (s.fillCache k i).pixrectWH = s.pixrectWH := rfl
@[simp] theorem fillCache_clutsize (s : State) (k : Color16) (i : Byte) : (s.fillCache k i).clutsize = s.clutsize := rfl
@[simp] theorem fillCache_pixsize (s : State) (k : Color16) (i : Byte) : (s.fillCache k i).pixsize = s.pixsize := rfl
@[simp] theorem fillCache_truew (s : State) (k : Color16) (i : Byte) : (s.fillCache k i).truew = s.truew := rfl
@[simp] theorem fillCache_pixoff (s : State) (k : Color16) (i : Byte) : (s.fillCache k i).pixoff = s.pixoff := rfl
@[simp] theorem fillCache_imgbase (s : State) (k : Color16) (i : Byte) : (s.fillCache k i).imgbase = s.imgbase := rfl
@[simp] theorem fillCache_imgw (s : State) (k : Color16) (i : Byte) : (s.fillCache k i).imgw = s.imgw := rfl
@[simp] theorem fillCache_imgh (s : State) (k : Color16) (i : Byte) : (s.fillCache k i).imgh = s.imgh := rfl
@[simp] theorem fillCache_dst (s : State) (k : Color16) (i : Byte) : (s.fillCache k i).dst = s.dst := rfl
@[simp] theorem fillCache_qcnt (s : State) (k : Color16) (i : Byte) : (s.fillCache k i).qcnt = s.qcnt + 1 := rfl
@[simp] theorem fillCache_buf (s : State) (k : Color16) (i : Byte) : (s.fillCache k i).buf = s.buf := rfl
@[simp] theorem fillCache_img (s : State) (k : Color16) (i : Byte) : (s.fillCache k i).img = s.img := rfl
@[simp] theorem fillCache_clut (s : State) (k : Color16) (i : Byte) : (s.fillCache k i).clut = s.clut := rfl
@[simp] theorem fillCache_cache (s : State) (k : Color16) (i : Byte) : (s.fillCache k i).cache = Memory.store s.cache k.toNat i := rfl

/-! ## `complete` -/

@[simp] theorem complete_params (s : State) : (complete s).params = s.params := rfl
@[simp] theorem complete_pending (s : State) : (complete s).pending = s.pending := rfl
@[simp] theorem complete_replies (s : State) : (complete s).replies = s.replies := rfl
@[simp] theorem complete_epoch (s : State) : (complete s).epoch = s.epoch := rfl
@[simp] theorem complete_cmd (s : State) : (complete s).cmd = s.cmd := rfl
@[simp] theorem complete_status (s : State) : (complete s).status = 0 := rfl
@[simp] theorem complete_ctrl (s : State) : (complete s).ctrl = s.ctrl := rfl
@[simp] theorem complete_mode (s : State) : (complete s).mode = s.mode := rfl
@[simp] theorem complete_opa (s : State) : (complete s).opa = s.opa := rfl
@[simp] theorem complete_res (s : State) : (complete s).res = s.res := rfl
@[simp] theorem complete_spos (s : State) : (complete s).spos = s.spos := rfl
@[simp] theorem complete_slen (s : State) : (complete s).slen = s.slen := rfl
@[simp] theorem complete_paloff (s : State) : (complete s).paloff = s.paloff := rfl
@[simp] theorem complete_clutn (s : State) : (complete s).clutn = s.clutn := rfl
@[simp] theorem complete_clen (s : State) : (complete s).clen = s.clen := rfl
@[simp] theorem complete_page (s : State) : (complete s).page = s.page := rfl
@[simp] theorem complete_clutrectXY (s : State) : (complete s).clutrectXY = s.clutrectXY := rfl
@[simp] theorem complete_clutrectWH (s : State) : (complete s).clutrectWH = s.clutrectWH := rfl
@[simp] theorem complete_pixrectXY (s : State) : (complete s).pixrectXY = s.pixrectXY := rfl
@[simp] theorem complete_pixrectWH (s : State) : (complete s).pixrectWH = s.pixrectWH := rfl
@[simp] theorem complete_clutsize (s : State) : (complete s).clutsize = s.clutsize := rfl
@[simp] theorem complete_pixsize (s : State) : (complete s).pixsize = s.pixsize := rfl
@[simp] theorem complete_truew (s : State) : (complete s).truew = s.truew := rfl
@[simp] theorem complete_pixoff (s : State) : (complete s).pixoff = s.pixoff := rfl
@[simp] theorem complete_imgbase (s : State) : (complete s).imgbase = s.imgbase := rfl
@[simp] theorem complete_imgw (s : State) : (complete s).imgw = s.imgw := rfl
@[simp] theorem complete_imgh (s : State) : (complete s).imgh = s.imgh := rfl
@[simp] theorem complete_dst (s : State) : (complete s).dst = s.dst := rfl
@[simp] theorem complete_qcnt (s : State) : (complete s).qcnt = s.qcnt := rfl
@[simp] theorem complete_buf (s : State) : (complete s).buf = s.buf := rfl
@[simp] theorem complete_img (s : State) : (complete s).img = s.img := rfl
@[simp] theorem complete_clut (s : State) : (complete s).clut = s.clut := rfl
@[simp] theorem complete_cache (s : State) : (complete s).cache = s.cache := rfl

/-! ## `takeFault` -/

@[simp] theorem takeFault_params (s : State) (e : ErrorKind) : (takeFault e s).params = s.params := rfl
@[simp] theorem takeFault_pending (s : State) (e : ErrorKind) : (takeFault e s).pending = s.pending := rfl
@[simp] theorem takeFault_replies (s : State) (e : ErrorKind) : (takeFault e s).replies = s.replies := rfl
@[simp] theorem takeFault_epoch (s : State) (e : ErrorKind) : (takeFault e s).epoch = s.epoch := rfl
@[simp] theorem takeFault_cmd (s : State) (e : ErrorKind) : (takeFault e s).cmd = s.cmd := rfl
@[simp] theorem takeFault_status (s : State) (e : ErrorKind) : (takeFault e s).status = BitVec.ofNat 32 e.code := rfl
@[simp] theorem takeFault_ctrl (s : State) (e : ErrorKind) : (takeFault e s).ctrl = s.ctrl := rfl
@[simp] theorem takeFault_mode (s : State) (e : ErrorKind) : (takeFault e s).mode = s.mode := rfl
@[simp] theorem takeFault_opa (s : State) (e : ErrorKind) : (takeFault e s).opa = s.opa := rfl
@[simp] theorem takeFault_res (s : State) (e : ErrorKind) : (takeFault e s).res = s.res := rfl
@[simp] theorem takeFault_spos (s : State) (e : ErrorKind) : (takeFault e s).spos = s.spos := rfl
@[simp] theorem takeFault_slen (s : State) (e : ErrorKind) : (takeFault e s).slen = s.slen := rfl
@[simp] theorem takeFault_paloff (s : State) (e : ErrorKind) : (takeFault e s).paloff = s.paloff := rfl
@[simp] theorem takeFault_clutn (s : State) (e : ErrorKind) : (takeFault e s).clutn = s.clutn := rfl
@[simp] theorem takeFault_clen (s : State) (e : ErrorKind) : (takeFault e s).clen = s.clen := rfl
@[simp] theorem takeFault_page (s : State) (e : ErrorKind) : (takeFault e s).page = s.page := rfl
@[simp] theorem takeFault_clutrectXY (s : State) (e : ErrorKind) : (takeFault e s).clutrectXY = s.clutrectXY := rfl
@[simp] theorem takeFault_clutrectWH (s : State) (e : ErrorKind) : (takeFault e s).clutrectWH = s.clutrectWH := rfl
@[simp] theorem takeFault_pixrectXY (s : State) (e : ErrorKind) : (takeFault e s).pixrectXY = s.pixrectXY := rfl
@[simp] theorem takeFault_pixrectWH (s : State) (e : ErrorKind) : (takeFault e s).pixrectWH = s.pixrectWH := rfl
@[simp] theorem takeFault_clutsize (s : State) (e : ErrorKind) : (takeFault e s).clutsize = s.clutsize := rfl
@[simp] theorem takeFault_pixsize (s : State) (e : ErrorKind) : (takeFault e s).pixsize = s.pixsize := rfl
@[simp] theorem takeFault_truew (s : State) (e : ErrorKind) : (takeFault e s).truew = s.truew := rfl
@[simp] theorem takeFault_pixoff (s : State) (e : ErrorKind) : (takeFault e s).pixoff = s.pixoff := rfl
@[simp] theorem takeFault_imgbase (s : State) (e : ErrorKind) : (takeFault e s).imgbase = s.imgbase := rfl
@[simp] theorem takeFault_imgw (s : State) (e : ErrorKind) : (takeFault e s).imgw = s.imgw := rfl
@[simp] theorem takeFault_imgh (s : State) (e : ErrorKind) : (takeFault e s).imgh = s.imgh := rfl
@[simp] theorem takeFault_dst (s : State) (e : ErrorKind) : (takeFault e s).dst = s.dst := rfl
@[simp] theorem takeFault_qcnt (s : State) (e : ErrorKind) : (takeFault e s).qcnt = s.qcnt := rfl
@[simp] theorem takeFault_buf (s : State) (e : ErrorKind) : (takeFault e s).buf = s.buf := rfl
@[simp] theorem takeFault_img (s : State) (e : ErrorKind) : (takeFault e s).img = s.img := rfl
@[simp] theorem takeFault_clut (s : State) (e : ErrorKind) : (takeFault e s).clut = s.clut := rfl
@[simp] theorem takeFault_cache (s : State) (e : ErrorKind) : (takeFault e s).cache = s.cache := rfl

/-! ## `withPending` -/

@[simp] theorem withPending_params (s : State) (r : List HostAction) : (s.withPending r).params = s.params := rfl
@[simp] theorem withPending_pending (s : State) (r : List HostAction) : (s.withPending r).pending = r := rfl
@[simp] theorem withPending_replies (s : State) (r : List HostAction) : (s.withPending r).replies = s.replies := rfl
@[simp] theorem withPending_epoch (s : State) (r : List HostAction) : (s.withPending r).epoch = s.epoch := rfl
@[simp] theorem withPending_cmd (s : State) (r : List HostAction) : (s.withPending r).cmd = s.cmd := rfl
@[simp] theorem withPending_status (s : State) (r : List HostAction) : (s.withPending r).status = s.status := rfl
@[simp] theorem withPending_ctrl (s : State) (r : List HostAction) : (s.withPending r).ctrl = s.ctrl := rfl
@[simp] theorem withPending_mode (s : State) (r : List HostAction) : (s.withPending r).mode = s.mode := rfl
@[simp] theorem withPending_opa (s : State) (r : List HostAction) : (s.withPending r).opa = s.opa := rfl
@[simp] theorem withPending_res (s : State) (r : List HostAction) : (s.withPending r).res = s.res := rfl
@[simp] theorem withPending_spos (s : State) (r : List HostAction) : (s.withPending r).spos = s.spos := rfl
@[simp] theorem withPending_slen (s : State) (r : List HostAction) : (s.withPending r).slen = s.slen := rfl
@[simp] theorem withPending_paloff (s : State) (r : List HostAction) : (s.withPending r).paloff = s.paloff := rfl
@[simp] theorem withPending_clutn (s : State) (r : List HostAction) : (s.withPending r).clutn = s.clutn := rfl
@[simp] theorem withPending_clen (s : State) (r : List HostAction) : (s.withPending r).clen = s.clen := rfl
@[simp] theorem withPending_page (s : State) (r : List HostAction) : (s.withPending r).page = s.page := rfl
@[simp] theorem withPending_clutrectXY (s : State) (r : List HostAction) : (s.withPending r).clutrectXY = s.clutrectXY := rfl
@[simp] theorem withPending_clutrectWH (s : State) (r : List HostAction) : (s.withPending r).clutrectWH = s.clutrectWH := rfl
@[simp] theorem withPending_pixrectXY (s : State) (r : List HostAction) : (s.withPending r).pixrectXY = s.pixrectXY := rfl
@[simp] theorem withPending_pixrectWH (s : State) (r : List HostAction) : (s.withPending r).pixrectWH = s.pixrectWH := rfl
@[simp] theorem withPending_clutsize (s : State) (r : List HostAction) : (s.withPending r).clutsize = s.clutsize := rfl
@[simp] theorem withPending_pixsize (s : State) (r : List HostAction) : (s.withPending r).pixsize = s.pixsize := rfl
@[simp] theorem withPending_truew (s : State) (r : List HostAction) : (s.withPending r).truew = s.truew := rfl
@[simp] theorem withPending_pixoff (s : State) (r : List HostAction) : (s.withPending r).pixoff = s.pixoff := rfl
@[simp] theorem withPending_imgbase (s : State) (r : List HostAction) : (s.withPending r).imgbase = s.imgbase := rfl
@[simp] theorem withPending_imgw (s : State) (r : List HostAction) : (s.withPending r).imgw = s.imgw := rfl
@[simp] theorem withPending_imgh (s : State) (r : List HostAction) : (s.withPending r).imgh = s.imgh := rfl
@[simp] theorem withPending_dst (s : State) (r : List HostAction) : (s.withPending r).dst = s.dst := rfl
@[simp] theorem withPending_qcnt (s : State) (r : List HostAction) : (s.withPending r).qcnt = s.qcnt := rfl
@[simp] theorem withPending_buf (s : State) (r : List HostAction) : (s.withPending r).buf = s.buf := rfl
@[simp] theorem withPending_img (s : State) (r : List HostAction) : (s.withPending r).img = s.img := rfl
@[simp] theorem withPending_clut (s : State) (r : List HostAction) : (s.withPending r).clut = s.clut := rfl
@[simp] theorem withPending_cache (s : State) (r : List HostAction) : (s.withPending r).cache = s.cache := rfl

/-! ## `addReply` -/

@[simp] theorem addReply_params (s : State) (r : Reply) : (s.addReply r).params = s.params := rfl
@[simp] theorem addReply_pending (s : State) (r : Reply) : (s.addReply r).pending = s.pending := rfl
@[simp] theorem addReply_replies (s : State) (r : Reply) : (s.addReply r).replies = r :: s.replies := rfl
@[simp] theorem addReply_epoch (s : State) (r : Reply) : (s.addReply r).epoch = s.epoch := rfl
@[simp] theorem addReply_cmd (s : State) (r : Reply) : (s.addReply r).cmd = s.cmd := rfl
@[simp] theorem addReply_status (s : State) (r : Reply) : (s.addReply r).status = s.status := rfl
@[simp] theorem addReply_ctrl (s : State) (r : Reply) : (s.addReply r).ctrl = s.ctrl := rfl
@[simp] theorem addReply_mode (s : State) (r : Reply) : (s.addReply r).mode = s.mode := rfl
@[simp] theorem addReply_opa (s : State) (r : Reply) : (s.addReply r).opa = s.opa := rfl
@[simp] theorem addReply_res (s : State) (r : Reply) : (s.addReply r).res = s.res := rfl
@[simp] theorem addReply_spos (s : State) (r : Reply) : (s.addReply r).spos = s.spos := rfl
@[simp] theorem addReply_slen (s : State) (r : Reply) : (s.addReply r).slen = s.slen := rfl
@[simp] theorem addReply_paloff (s : State) (r : Reply) : (s.addReply r).paloff = s.paloff := rfl
@[simp] theorem addReply_clutn (s : State) (r : Reply) : (s.addReply r).clutn = s.clutn := rfl
@[simp] theorem addReply_clen (s : State) (r : Reply) : (s.addReply r).clen = s.clen := rfl
@[simp] theorem addReply_page (s : State) (r : Reply) : (s.addReply r).page = s.page := rfl
@[simp] theorem addReply_clutrectXY (s : State) (r : Reply) : (s.addReply r).clutrectXY = s.clutrectXY := rfl
@[simp] theorem addReply_clutrectWH (s : State) (r : Reply) : (s.addReply r).clutrectWH = s.clutrectWH := rfl
@[simp] theorem addReply_pixrectXY (s : State) (r : Reply) : (s.addReply r).pixrectXY = s.pixrectXY := rfl
@[simp] theorem addReply_pixrectWH (s : State) (r : Reply) : (s.addReply r).pixrectWH = s.pixrectWH := rfl
@[simp] theorem addReply_clutsize (s : State) (r : Reply) : (s.addReply r).clutsize = s.clutsize := rfl
@[simp] theorem addReply_pixsize (s : State) (r : Reply) : (s.addReply r).pixsize = s.pixsize := rfl
@[simp] theorem addReply_truew (s : State) (r : Reply) : (s.addReply r).truew = s.truew := rfl
@[simp] theorem addReply_pixoff (s : State) (r : Reply) : (s.addReply r).pixoff = s.pixoff := rfl
@[simp] theorem addReply_imgbase (s : State) (r : Reply) : (s.addReply r).imgbase = s.imgbase := rfl
@[simp] theorem addReply_imgw (s : State) (r : Reply) : (s.addReply r).imgw = s.imgw := rfl
@[simp] theorem addReply_imgh (s : State) (r : Reply) : (s.addReply r).imgh = s.imgh := rfl
@[simp] theorem addReply_dst (s : State) (r : Reply) : (s.addReply r).dst = s.dst := rfl
@[simp] theorem addReply_qcnt (s : State) (r : Reply) : (s.addReply r).qcnt = s.qcnt := rfl
@[simp] theorem addReply_buf (s : State) (r : Reply) : (s.addReply r).buf = s.buf := rfl
@[simp] theorem addReply_img (s : State) (r : Reply) : (s.addReply r).img = s.img := rfl
@[simp] theorem addReply_clut (s : State) (r : Reply) : (s.addReply r).clut = s.clut := rfl
@[simp] theorem addReply_cache (s : State) (r : Reply) : (s.addReply r).cache = s.cache := rfl

/-! ## `commitParse` -/

@[simp] theorem commitParse_params (s : State) (m : Nat) (c : ClutBlock) (z : Nat) (r : Rect) (w o : Nat) : (s.commitParse m c z r w o).params = s.params := rfl
@[simp] theorem commitParse_pending (s : State) (m : Nat) (c : ClutBlock) (z : Nat) (r : Rect) (w o : Nat) : (s.commitParse m c z r w o).pending = s.pending := rfl
@[simp] theorem commitParse_replies (s : State) (m : Nat) (c : ClutBlock) (z : Nat) (r : Rect) (w o : Nat) : (s.commitParse m c z r w o).replies = s.replies := rfl
@[simp] theorem commitParse_epoch (s : State) (m : Nat) (c : ClutBlock) (z : Nat) (r : Rect) (w o : Nat) : (s.commitParse m c z r w o).epoch = s.epoch := rfl
@[simp] theorem commitParse_cmd (s : State) (m : Nat) (c : ClutBlock) (z : Nat) (r : Rect) (w o : Nat) : (s.commitParse m c z r w o).cmd = s.cmd := rfl
@[simp] theorem commitParse_status (s : State) (m : Nat) (c : ClutBlock) (z : Nat) (r : Rect) (w o : Nat) : (s.commitParse m c z r w o).status = s.status := rfl
@[simp] theorem commitParse_ctrl (s : State) (m : Nat) (c : ClutBlock) (z : Nat) (r : Rect) (w o : Nat) : (s.commitParse m c z r w o).ctrl = s.ctrl := rfl
@[simp] theorem commitParse_mode (s : State) (m : Nat) (c : ClutBlock) (z : Nat) (r : Rect) (w o : Nat) : (s.commitParse m c z r w o).mode = BitVec.ofNat 32 m := rfl
@[simp] theorem commitParse_opa (s : State) (m : Nat) (c : ClutBlock) (z : Nat) (r : Rect) (w o : Nat) : (s.commitParse m c z r w o).opa = s.opa := rfl
@[simp] theorem commitParse_res (s : State) (m : Nat) (c : ClutBlock) (z : Nat) (r : Rect) (w o : Nat) : (s.commitParse m c z r w o).res = s.res := rfl
@[simp] theorem commitParse_spos (s : State) (m : Nat) (c : ClutBlock) (z : Nat) (r : Rect) (w o : Nat) : (s.commitParse m c z r w o).spos = s.spos := rfl
@[simp] theorem commitParse_slen (s : State) (m : Nat) (c : ClutBlock) (z : Nat) (r : Rect) (w o : Nat) : (s.commitParse m c z r w o).slen = s.slen := rfl
@[simp] theorem commitParse_paloff (s : State) (m : Nat) (c : ClutBlock) (z : Nat) (r : Rect) (w o : Nat) : (s.commitParse m c z r w o).paloff = BitVec.ofNat 32 c.paloff := rfl
@[simp] theorem commitParse_clutn (s : State) (m : Nat) (c : ClutBlock) (z : Nat) (r : Rect) (w o : Nat) : (s.commitParse m c z r w o).clutn = BitVec.ofNat 32 c.entries.length := rfl
@[simp] theorem commitParse_clen (s : State) (m : Nat) (c : ClutBlock) (z : Nat) (r : Rect) (w o : Nat) : (s.commitParse m c z r w o).clen = BitVec.ofNat 32 c.entries.length := rfl
@[simp] theorem commitParse_page (s : State) (m : Nat) (c : ClutBlock) (z : Nat) (r : Rect) (w o : Nat) : (s.commitParse m c z r w o).page = s.page := rfl
@[simp] theorem commitParse_clutrectXY (s : State) (m : Nat) (c : ClutBlock) (z : Nat) (r : Rect) (w o : Nat) : (s.commitParse m c z r w o).clutrectXY = packHalves c.rect.x c.rect.y := rfl
@[simp] theorem commitParse_clutrectWH (s : State) (m : Nat) (c : ClutBlock) (z : Nat) (r : Rect) (w o : Nat) : (s.commitParse m c z r w o).clutrectWH = packHalves c.rect.w c.rect.h := rfl
@[simp] theorem commitParse_pixrectXY (s : State) (m : Nat) (c : ClutBlock) (z : Nat) (r : Rect) (w o : Nat) : (s.commitParse m c z r w o).pixrectXY = packHalves r.x r.y := rfl
@[simp] theorem commitParse_pixrectWH (s : State) (m : Nat) (c : ClutBlock) (z : Nat) (r : Rect) (w o : Nat) : (s.commitParse m c z r w o).pixrectWH = packHalves r.w r.h := rfl
@[simp] theorem commitParse_clutsize (s : State) (m : Nat) (c : ClutBlock) (z : Nat) (r : Rect) (w o : Nat) : (s.commitParse m c z r w o).clutsize = BitVec.ofNat 32 c.size := rfl
@[simp] theorem commitParse_pixsize (s : State) (m : Nat) (c : ClutBlock) (z : Nat) (r : Rect) (w o : Nat) : (s.commitParse m c z r w o).pixsize = BitVec.ofNat 32 z := rfl
@[simp] theorem commitParse_truew (s : State) (m : Nat) (c : ClutBlock) (z : Nat) (r : Rect) (w o : Nat) : (s.commitParse m c z r w o).truew = BitVec.ofNat 32 w := rfl
@[simp] theorem commitParse_pixoff (s : State) (m : Nat) (c : ClutBlock) (z : Nat) (r : Rect) (w o : Nat) : (s.commitParse m c z r w o).pixoff = BitVec.ofNat 32 o := rfl
@[simp] theorem commitParse_imgbase (s : State) (m : Nat) (c : ClutBlock) (z : Nat) (r : Rect) (w o : Nat) : (s.commitParse m c z r w o).imgbase = s.imgbase := rfl
@[simp] theorem commitParse_imgw (s : State) (m : Nat) (c : ClutBlock) (z : Nat) (r : Rect) (w o : Nat) : (s.commitParse m c z r w o).imgw = s.imgw := rfl
@[simp] theorem commitParse_imgh (s : State) (m : Nat) (c : ClutBlock) (z : Nat) (r : Rect) (w o : Nat) : (s.commitParse m c z r w o).imgh = s.imgh := rfl
@[simp] theorem commitParse_dst (s : State) (m : Nat) (c : ClutBlock) (z : Nat) (r : Rect) (w o : Nat) : (s.commitParse m c z r w o).dst = s.dst := rfl
@[simp] theorem commitParse_qcnt (s : State) (m : Nat) (c : ClutBlock) (z : Nat) (r : Rect) (w o : Nat) : (s.commitParse m c z r w o).qcnt = 0 := rfl
@[simp] theorem commitParse_buf (s : State) (m : Nat) (c : ClutBlock) (z : Nat) (r : Rect) (w o : Nat) : (s.commitParse m c z r w o).buf = s.buf := rfl
@[simp] theorem commitParse_img (s : State) (m : Nat) (c : ClutBlock) (z : Nat) (r : Rect) (w o : Nat) : (s.commitParse m c z r w o).img = s.img := rfl
@[simp] theorem commitParse_clut (s : State) (m : Nat) (c : ClutBlock) (z : Nat) (r : Rect) (w o : Nat) : (s.commitParse m c z r w o).clut = c.entries := rfl
@[simp] theorem commitParse_cache (s : State) (m : Nat) (c : ClutBlock) (z : Nat) (r : Rect) (w o : Nat) : (s.commitParse m c z r w o).cache = [] := rfl

end Sys2Proof.Machine
end

