-- ==== Sys2Proof/Laws/Views.lean ====
section
/-!
SUPPORT. For every named update of the state, the operand views it leaves as they are: one lemma per view
per update, true by definition.
-/

namespace Sys2Proof.Machine

/-! ## `setStatus` -/

@[simp] theorem setStatus_te (s : State) (v : Word) :
    (s.setStatus v).te = s.te := rfl
@[simp] theorem setStatus_formatCode (s : State) (v : Word) :
    (s.setStatus v).formatCode = s.formatCode := rfl
@[simp] theorem setStatus_format (s : State) (v : Word) :
    (s.setStatus v).format = s.format := rfl
@[simp] theorem setStatus_opaCode (s : State) (v : Word) :
    (s.setStatus v).opaCode = s.opaCode := rfl
@[simp] theorem setStatus_planeWidth (s : State) (v : Word) :
    (s.setStatus v).planeWidth = s.planeWidth := rfl
@[simp] theorem setStatus_planeHeight (s : State) (v : Word) :
    (s.setStatus v).planeHeight = s.planeHeight := rfl
@[simp] theorem setStatus_storedWidth (s : State) (v : Word) :
    (s.setStatus v).storedWidth = s.storedWidth := rfl
@[simp] theorem setStatus_pixelCount (s : State) (v : Word) :
    (s.setStatus v).pixelCount = s.pixelCount := rfl
@[simp] theorem setStatus_streamLimit (s : State) (v : Word) :
    (s.setStatus v).streamLimit = s.streamLimit := rfl
@[simp] theorem setStatus_bufByte (s : State) (v : Word) (x : Nat) :
    (s.setStatus v).bufByte x = s.bufByte x := rfl
@[simp] theorem setStatus_imgCell (s : State) (v : Word) (x : Nat) :
    (s.setStatus v).imgCell x = s.imgCell x := rfl
@[simp] theorem setStatus_clutEntry (s : State) (v : Word) (x : Nat) :
    (s.setStatus v).clutEntry x = s.clutEntry x := rfl
@[simp] theorem setStatus_cacheCell (s : State) (v : Word) (x : Color16) :
    (s.setStatus v).cacheCell x = s.cacheCell x := rfl
@[simp] theorem setStatus_pageCount (s : State) (v : Word) (x : IndexedFormat) :
    (s.setStatus v).pageCount x = s.pageCount x := rfl
@[simp] theorem setStatus_wholePages (s : State) (v : Word) (x : IndexedFormat) :
    (s.setStatus v).wholePages x = s.wholePages x := rfl
@[simp] theorem setStatus_pageEntry (s : State) (v : Word) (x : IndexedFormat) (y z' : Nat) :
    (s.setStatus v).pageEntry x y z' = s.pageEntry x y z' := rfl
@[simp] theorem setStatus_resolve (s : State) (v : Word) (x : IndexedFormat) (y : Nat) (z' : RGBA) :
    (s.setStatus v).resolve x y z' = s.resolve x y z' := rfl

/-! ## `setRes` -/

@[simp] theorem setRes_te (s : State) (v : Word) :
    (s.setRes v).te = s.te := rfl
@[simp] theorem setRes_formatCode (s : State) (v : Word) :
    (s.setRes v).formatCode = s.formatCode := rfl
@[simp] theorem setRes_format (s : State) (v : Word) :
    (s.setRes v).format = s.format := rfl
@[simp] theorem setRes_opaCode (s : State) (v : Word) :
    (s.setRes v).opaCode = s.opaCode := rfl
@[simp] theorem setRes_planeWidth (s : State) (v : Word) :
    (s.setRes v).planeWidth = s.planeWidth := rfl
@[simp] theorem setRes_planeHeight (s : State) (v : Word) :
    (s.setRes v).planeHeight = s.planeHeight := rfl
@[simp] theorem setRes_storedWidth (s : State) (v : Word) :
    (s.setRes v).storedWidth = s.storedWidth := rfl
@[simp] theorem setRes_pixelCount (s : State) (v : Word) :
    (s.setRes v).pixelCount = s.pixelCount := rfl
@[simp] theorem setRes_streamLimit (s : State) (v : Word) :
    (s.setRes v).streamLimit = s.streamLimit := rfl
@[simp] theorem setRes_bufByte (s : State) (v : Word) (x : Nat) :
    (s.setRes v).bufByte x = s.bufByte x := rfl
@[simp] theorem setRes_imgCell (s : State) (v : Word) (x : Nat) :
    (s.setRes v).imgCell x = s.imgCell x := rfl
@[simp] theorem setRes_clutEntry (s : State) (v : Word) (x : Nat) :
    (s.setRes v).clutEntry x = s.clutEntry x := rfl
@[simp] theorem setRes_cacheCell (s : State) (v : Word) (x : Color16) :
    (s.setRes v).cacheCell x = s.cacheCell x := rfl
@[simp] theorem setRes_pageCount (s : State) (v : Word) (x : IndexedFormat) :
    (s.setRes v).pageCount x = s.pageCount x := rfl
@[simp] theorem setRes_wholePages (s : State) (v : Word) (x : IndexedFormat) :
    (s.setRes v).wholePages x = s.wholePages x := rfl
@[simp] theorem setRes_pageEntry (s : State) (v : Word) (x : IndexedFormat) (y z' : Nat) :
    (s.setRes v).pageEntry x y z' = s.pageEntry x y z' := rfl
@[simp] theorem setRes_resolve (s : State) (v : Word) (x : IndexedFormat) (y : Nat) (z' : RGBA) :
    (s.setRes v).resolve x y z' = s.resolve x y z' := rfl
@[simp] theorem setRes_statusErr (s : State) (v : Word) :
    (s.setRes v).statusErr = s.statusErr := rfl
@[simp] theorem setRes_statusHit (s : State) (v : Word) :
    (s.setRes v).statusHit = s.statusHit := rfl

/-! ## `setTrueWidth` -/

@[simp] theorem setTrueWidth_te (s : State) (w : Nat) :
    (s.setTrueWidth w).te = s.te := rfl
@[simp] theorem setTrueWidth_formatCode (s : State) (w : Nat) :
    (s.setTrueWidth w).formatCode = s.formatCode := rfl
@[simp] theorem setTrueWidth_format (s : State) (w : Nat) :
    (s.setTrueWidth w).format = s.format := rfl
@[simp] theorem setTrueWidth_opaCode (s : State) (w : Nat) :
    (s.setTrueWidth w).opaCode = s.opaCode := rfl
@[simp] theorem setTrueWidth_planeHeight (s : State) (w : Nat) :
    (s.setTrueWidth w).planeHeight = s.planeHeight := rfl
@[simp] theorem setTrueWidth_storedWidth (s : State) (w : Nat) :
    (s.setTrueWidth w).storedWidth = s.storedWidth := rfl
@[simp] theorem setTrueWidth_streamLimit (s : State) (w : Nat) :
    (s.setTrueWidth w).streamLimit = s.streamLimit := rfl
@[simp] theorem setTrueWidth_bufByte (s : State) (w : Nat) (x : Nat) :
    (s.setTrueWidth w).bufByte x = s.bufByte x := rfl
@[simp] theorem setTrueWidth_imgCell (s : State) (w : Nat) (x : Nat) :
    (s.setTrueWidth w).imgCell x = s.imgCell x := rfl
@[simp] theorem setTrueWidth_clutEntry (s : State) (w : Nat) (x : Nat) :
    (s.setTrueWidth w).clutEntry x = s.clutEntry x := rfl
@[simp] theorem setTrueWidth_cacheCell (s : State) (w : Nat) (x : Color16) :
    (s.setTrueWidth w).cacheCell x = s.cacheCell x := rfl
@[simp] theorem setTrueWidth_pageCount (s : State) (w : Nat) (x : IndexedFormat) :
    (s.setTrueWidth w).pageCount x = s.pageCount x := rfl
@[simp] theorem setTrueWidth_wholePages (s : State) (w : Nat) (x : IndexedFormat) :
    (s.setTrueWidth w).wholePages x = s.wholePages x := rfl
@[simp] theorem setTrueWidth_pageEntry (s : State) (w : Nat) (x : IndexedFormat) (y z' : Nat) :
    (s.setTrueWidth w).pageEntry x y z' = s.pageEntry x y z' := rfl
@[simp] theorem setTrueWidth_resolve (s : State) (w : Nat) (x : IndexedFormat) (y : Nat) (z' : RGBA) :
    (s.setTrueWidth w).resolve x y z' = s.resolve x y z' := rfl
@[simp] theorem setTrueWidth_statusErr (s : State) (w : Nat) :
    (s.setTrueWidth w).statusErr = s.statusErr := rfl
@[simp] theorem setTrueWidth_statusHit (s : State) (w : Nat) :
    (s.setTrueWidth w).statusHit = s.statusHit := rfl

/-! ## `setImageSize` -/

@[simp] theorem setImageSize_te (s : State) (w h : Nat) :
    (s.setImageSize w h).te = s.te := rfl
@[simp] theorem setImageSize_formatCode (s : State) (w h : Nat) :
    (s.setImageSize w h).formatCode = s.formatCode := rfl
@[simp] theorem setImageSize_format (s : State) (w h : Nat) :
    (s.setImageSize w h).format = s.format := rfl
@[simp] theorem setImageSize_opaCode (s : State) (w h : Nat) :
    (s.setImageSize w h).opaCode = s.opaCode := rfl
@[simp] theorem setImageSize_planeWidth (s : State) (w h : Nat) :
    (s.setImageSize w h).planeWidth = s.planeWidth := rfl
@[simp] theorem setImageSize_planeHeight (s : State) (w h : Nat) :
    (s.setImageSize w h).planeHeight = s.planeHeight := rfl
@[simp] theorem setImageSize_storedWidth (s : State) (w h : Nat) :
    (s.setImageSize w h).storedWidth = s.storedWidth := rfl
@[simp] theorem setImageSize_pixelCount (s : State) (w h : Nat) :
    (s.setImageSize w h).pixelCount = s.pixelCount := rfl
@[simp] theorem setImageSize_streamLimit (s : State) (w h : Nat) :
    (s.setImageSize w h).streamLimit = s.streamLimit := rfl
@[simp] theorem setImageSize_bufByte (s : State) (w h : Nat) (x : Nat) :
    (s.setImageSize w h).bufByte x = s.bufByte x := rfl
@[simp] theorem setImageSize_imgCell (s : State) (w h : Nat) (x : Nat) :
    (s.setImageSize w h).imgCell x = s.imgCell x := rfl
@[simp] theorem setImageSize_clutEntry (s : State) (w h : Nat) (x : Nat) :
    (s.setImageSize w h).clutEntry x = s.clutEntry x := rfl
@[simp] theorem setImageSize_cacheCell (s : State) (w h : Nat) (x : Color16) :
    (s.setImageSize w h).cacheCell x = s.cacheCell x := rfl
@[simp] theorem setImageSize_pageCount (s : State) (w h : Nat) (x : IndexedFormat) :
    (s.setImageSize w h).pageCount x = s.pageCount x := rfl
@[simp] theorem setImageSize_wholePages (s : State) (w h : Nat) (x : IndexedFormat) :
    (s.setImageSize w h).wholePages x = s.wholePages x := rfl
@[simp] theorem setImageSize_pageEntry (s : State) (w h : Nat) (x : IndexedFormat) (y z' : Nat) :
    (s.setImageSize w h).pageEntry x y z' = s.pageEntry x y z' := rfl
@[simp] theorem setImageSize_resolve (s : State) (w h : Nat) (x : IndexedFormat) (y : Nat) (z' : RGBA) :
    (s.setImageSize w h).resolve x y z' = s.resolve x y z' := rfl
@[simp] theorem setImageSize_statusErr (s : State) (w h : Nat) :
    (s.setImageSize w h).statusErr = s.statusErr := rfl
@[simp] theorem setImageSize_statusHit (s : State) (w h : Nat) :
    (s.setImageSize w h).statusHit = s.statusHit := rfl

/-! ## `writeBuf` -/

@[simp] theorem writeBuf_te (s : State) (a : Nat) (bs : List Byte) :
    (s.writeBuf a bs).te = s.te := rfl
@[simp] theorem writeBuf_formatCode (s : State) (a : Nat) (bs : List Byte) :
    (s.writeBuf a bs).formatCode = s.formatCode := rfl
@[simp] theorem writeBuf_format (s : State) (a : Nat) (bs : List Byte) :
    (s.writeBuf a bs).format = s.format := rfl
@[simp] theorem writeBuf_opaCode (s : State) (a : Nat) (bs : List Byte) :
    (s.writeBuf a bs).opaCode = s.opaCode := rfl
@[simp] theorem writeBuf_planeWidth (s : State) (a : Nat) (bs : List Byte) :
    (s.writeBuf a bs).planeWidth = s.planeWidth := rfl
@[simp] theorem writeBuf_planeHeight (s : State) (a : Nat) (bs : List Byte) :
    (s.writeBuf a bs).planeHeight = s.planeHeight := rfl
@[simp] theorem writeBuf_storedWidth (s : State) (a : Nat) (bs : List Byte) :
    (s.writeBuf a bs).storedWidth = s.storedWidth := rfl
@[simp] theorem writeBuf_pixelCount (s : State) (a : Nat) (bs : List Byte) :
    (s.writeBuf a bs).pixelCount = s.pixelCount := rfl
@[simp] theorem writeBuf_streamLimit (s : State) (a : Nat) (bs : List Byte) :
    (s.writeBuf a bs).streamLimit = s.streamLimit := rfl
@[simp] theorem writeBuf_imgCell (s : State) (a : Nat) (bs : List Byte) (x : Nat) :
    (s.writeBuf a bs).imgCell x = s.imgCell x := rfl
@[simp] theorem writeBuf_clutEntry (s : State) (a : Nat) (bs : List Byte) (x : Nat) :
    (s.writeBuf a bs).clutEntry x = s.clutEntry x := rfl
@[simp] theorem writeBuf_cacheCell (s : State) (a : Nat) (bs : List Byte) (x : Color16) :
    (s.writeBuf a bs).cacheCell x = s.cacheCell x := rfl
@[simp] theorem writeBuf_pageCount (s : State) (a : Nat) (bs : List Byte) (x : IndexedFormat) :
    (s.writeBuf a bs).pageCount x = s.pageCount x := rfl
@[simp] theorem writeBuf_wholePages (s : State) (a : Nat) (bs : List Byte) (x : IndexedFormat) :
    (s.writeBuf a bs).wholePages x = s.wholePages x := rfl
@[simp] theorem writeBuf_pageEntry (s : State) (a : Nat) (bs : List Byte) (x : IndexedFormat) (y z' : Nat) :
    (s.writeBuf a bs).pageEntry x y z' = s.pageEntry x y z' := rfl
@[simp] theorem writeBuf_resolve (s : State) (a : Nat) (bs : List Byte) (x : IndexedFormat) (y : Nat) (z' : RGBA) :
    (s.writeBuf a bs).resolve x y z' = s.resolve x y z' := rfl
@[simp] theorem writeBuf_statusErr (s : State) (a : Nat) (bs : List Byte) :
    (s.writeBuf a bs).statusErr = s.statusErr := rfl
@[simp] theorem writeBuf_statusHit (s : State) (a : Nat) (bs : List Byte) :
    (s.writeBuf a bs).statusHit = s.statusHit := rfl

/-! ## `writeImg` -/

@[simp] theorem writeImg_te (s : State) (i : Nat) (ps : List Word) :
    (s.writeImg i ps).te = s.te := rfl
@[simp] theorem writeImg_formatCode (s : State) (i : Nat) (ps : List Word) :
    (s.writeImg i ps).formatCode = s.formatCode := rfl
@[simp] theorem writeImg_format (s : State) (i : Nat) (ps : List Word) :
    (s.writeImg i ps).format = s.format := rfl
@[simp] theorem writeImg_opaCode (s : State) (i : Nat) (ps : List Word) :
    (s.writeImg i ps).opaCode = s.opaCode := rfl
@[simp] theorem writeImg_planeWidth (s : State) (i : Nat) (ps : List Word) :
    (s.writeImg i ps).planeWidth = s.planeWidth := rfl
@[simp] theorem writeImg_planeHeight (s : State) (i : Nat) (ps : List Word) :
    (s.writeImg i ps).planeHeight = s.planeHeight := rfl
@[simp] theorem writeImg_storedWidth (s : State) (i : Nat) (ps : List Word) :
    (s.writeImg i ps).storedWidth = s.storedWidth := rfl
@[simp] theorem writeImg_pixelCount (s : State) (i : Nat) (ps : List Word) :
    (s.writeImg i ps).pixelCount = s.pixelCount := rfl
@[simp] theorem writeImg_streamLimit (s : State) (i : Nat) (ps : List Word) :
    (s.writeImg i ps).streamLimit = s.streamLimit := rfl
@[simp] theorem writeImg_bufByte (s : State) (i : Nat) (ps : List Word) (x : Nat) :
    (s.writeImg i ps).bufByte x = s.bufByte x := rfl
@[simp] theorem writeImg_clutEntry (s : State) (i : Nat) (ps : List Word) (x : Nat) :
    (s.writeImg i ps).clutEntry x = s.clutEntry x := rfl
@[simp] theorem writeImg_cacheCell (s : State) (i : Nat) (ps : List Word) (x : Color16) :
    (s.writeImg i ps).cacheCell x = s.cacheCell x := rfl
@[simp] theorem writeImg_pageCount (s : State) (i : Nat) (ps : List Word) (x : IndexedFormat) :
    (s.writeImg i ps).pageCount x = s.pageCount x := rfl
@[simp] theorem writeImg_wholePages (s : State) (i : Nat) (ps : List Word) (x : IndexedFormat) :
    (s.writeImg i ps).wholePages x = s.wholePages x := rfl
@[simp] theorem writeImg_pageEntry (s : State) (i : Nat) (ps : List Word) (x : IndexedFormat) (y z' : Nat) :
    (s.writeImg i ps).pageEntry x y z' = s.pageEntry x y z' := rfl
@[simp] theorem writeImg_resolve (s : State) (i : Nat) (ps : List Word) (x : IndexedFormat) (y : Nat) (z' : RGBA) :
    (s.writeImg i ps).resolve x y z' = s.resolve x y z' := rfl
@[simp] theorem writeImg_statusErr (s : State) (i : Nat) (ps : List Word) :
    (s.writeImg i ps).statusErr = s.statusErr := rfl
@[simp] theorem writeImg_statusHit (s : State) (i : Nat) (ps : List Word) :
    (s.writeImg i ps).statusHit = s.statusHit := rfl

/-! ## `loadClut` -/

@[simp] theorem loadClut_te (s : State) (es : List Color16) :
    (s.loadClut es).te = s.te := rfl
@[simp] theorem loadClut_formatCode (s : State) (es : List Color16) :
    (s.loadClut es).formatCode = s.formatCode := rfl
@[simp] theorem loadClut_format (s : State) (es : List Color16) :
    (s.loadClut es).format = s.format := rfl
@[simp] theorem loadClut_opaCode (s : State) (es : List Color16) :
    (s.loadClut es).opaCode = s.opaCode := rfl
@[simp] theorem loadClut_planeWidth (s : State) (es : List Color16) :
    (s.loadClut es).planeWidth = s.planeWidth := rfl
@[simp] theorem loadClut_planeHeight (s : State) (es : List Color16) :
    (s.loadClut es).planeHeight = s.planeHeight := rfl
@[simp] theorem loadClut_storedWidth (s : State) (es : List Color16) :
    (s.loadClut es).storedWidth = s.storedWidth := rfl
@[simp] theorem loadClut_pixelCount (s : State) (es : List Color16) :
    (s.loadClut es).pixelCount = s.pixelCount := rfl
@[simp] theorem loadClut_streamLimit (s : State) (es : List Color16) :
    (s.loadClut es).streamLimit = s.streamLimit := rfl
@[simp] theorem loadClut_bufByte (s : State) (es : List Color16) (x : Nat) :
    (s.loadClut es).bufByte x = s.bufByte x := rfl
@[simp] theorem loadClut_imgCell (s : State) (es : List Color16) (x : Nat) :
    (s.loadClut es).imgCell x = s.imgCell x := rfl
@[simp] theorem loadClut_cacheCell (s : State) (es : List Color16) (x : Color16) :
    (s.loadClut es).cacheCell x = s.cacheCell x := rfl
@[simp] theorem loadClut_statusErr (s : State) (es : List Color16) :
    (s.loadClut es).statusErr = s.statusErr := rfl
@[simp] theorem loadClut_statusHit (s : State) (es : List Color16) :
    (s.loadClut es).statusHit = s.statusHit := rfl

/-! ## `clearCache` -/

@[simp] theorem clearCache_te (s : State) :
    (s.clearCache).te = s.te := rfl
@[simp] theorem clearCache_formatCode (s : State) :
    (s.clearCache).formatCode = s.formatCode := rfl
@[simp] theorem clearCache_format (s : State) :
    (s.clearCache).format = s.format := rfl
@[simp] theorem clearCache_opaCode (s : State) :
    (s.clearCache).opaCode = s.opaCode := rfl
@[simp] theorem clearCache_planeWidth (s : State) :
    (s.clearCache).planeWidth = s.planeWidth := rfl
@[simp] theorem clearCache_planeHeight (s : State) :
    (s.clearCache).planeHeight = s.planeHeight := rfl
@[simp] theorem clearCache_storedWidth (s : State) :
    (s.clearCache).storedWidth = s.storedWidth := rfl
@[simp] theorem clearCache_pixelCount (s : State) :
    (s.clearCache).pixelCount = s.pixelCount := rfl
@[simp] theorem clearCache_streamLimit (s : State) :
    (s.clearCache).streamLimit = s.streamLimit := rfl
@[simp] theorem clearCache_bufByte (s : State) (x : Nat) :
    (s.clearCache).bufByte x = s.bufByte x := rfl
@[simp] theorem clearCache_imgCell (s : State) (x : Nat) :
    (s.clearCache).imgCell x = s.imgCell x := rfl
@[simp] theorem clearCache_clutEntry (s : State) (x : Nat) :
    (s.clearCache).clutEntry x = s.clutEntry x := rfl
@[simp] theorem clearCache_pageCount (s : State) (x : IndexedFormat) :
    (s.clearCache).pageCount x = s.pageCount x := rfl
@[simp] theorem clearCache_wholePages (s : State) (x : IndexedFormat) :
    (s.clearCache).wholePages x = s.wholePages x := rfl
@[simp] theorem clearCache_pageEntry (s : State) (x : IndexedFormat) (y z' : Nat) :
    (s.clearCache).pageEntry x y z' = s.pageEntry x y z' := rfl
@[simp] theorem clearCache_resolve (s : State) (x : IndexedFormat) (y : Nat) (z' : RGBA) :
    (s.clearCache).resolve x y z' = s.resolve x y z' := rfl
@[simp] theorem clearCache_statusErr (s : State) :
    (s.clearCache).statusErr = s.statusErr := rfl
@[simp] theorem clearCache_statusHit (s : State) :
    (s.clearCache).statusHit = s.statusHit := rfl

/-! ## `fillCache` -/

@[simp] theorem fillCache_te (s : State) (k : Color16) (i : Byte) :
    (s.fillCache k i).te = s.te := rfl
@[simp] theorem fillCache_formatCode (s : State) (k : Color16) (i : Byte) :
    (s.fillCache k i).formatCode = s.formatCode := rfl
@[simp] theorem fillCache_format (s : State) (k : Color16) (i : Byte) :
    (s.fillCache k i).format = s.format := rfl
@[simp] theorem fillCache_opaCode (s : State) (k : Color16) (i : Byte) :
    (s.fillCache k i).opaCode = s.opaCode := rfl
@[simp] theorem fillCache_planeWidth (s : State) (k : Color16) (i : Byte) :
    (s.fillCache k i).planeWidth = s.planeWidth := rfl
@[simp] theorem fillCache_planeHeight (s : State) (k : Color16) (i : Byte) :
    (s.fillCache k i).planeHeight = s.planeHeight := rfl
@[simp] theorem fillCache_storedWidth (s : State) (k : Color16) (i : Byte) :
    (s.fillCache k i).storedWidth = s.storedWidth := rfl
@[simp] theorem fillCache_pixelCount (s : State) (k : Color16) (i : Byte) :
    (s.fillCache k i).pixelCount = s.pixelCount := rfl
@[simp] theorem fillCache_streamLimit (s : State) (k : Color16) (i : Byte) :
    (s.fillCache k i).streamLimit = s.streamLimit := rfl
@[simp] theorem fillCache_bufByte (s : State) (k : Color16) (i : Byte) (x : Nat) :
    (s.fillCache k i).bufByte x = s.bufByte x := rfl
@[simp] theorem fillCache_imgCell (s : State) (k : Color16) (i : Byte) (x : Nat) :
    (s.fillCache k i).imgCell x = s.imgCell x := rfl
@[simp] theorem fillCache_clutEntry (s : State) (k : Color16) (i : Byte) (x : Nat) :
    (s.fillCache k i).clutEntry x = s.clutEntry x := rfl
@[simp] theorem fillCache_pageCount (s : State) (k : Color16) (i : Byte) (x : IndexedFormat) :
    (s.fillCache k i).pageCount x = s.pageCount x := rfl
@[simp] theorem fillCache_wholePages (s : State) (k : Color16) (i : Byte) (x : IndexedFormat) :
    (s.fillCache k i).wholePages x = s.wholePages x := rfl
@[simp] theorem fillCache_pageEntry (s : State) (k : Color16) (i : Byte) (x : IndexedFormat) (y z' : Nat) :
    (s.fillCache k i).pageEntry x y z' = s.pageEntry x y z' := rfl
@[simp] theorem fillCache_resolve (s : State) (k : Color16) (i : Byte) (x : IndexedFormat) (y : Nat) (z' : RGBA) :
    (s.fillCache k i).resolve x y z' = s.resolve x y z' := rfl
@[simp] theorem fillCache_statusErr (s : State) (k : Color16) (i : Byte) :
    (s.fillCache k i).statusErr = s.statusErr := rfl
@[simp] theorem fillCache_statusHit (s : State) (k : Color16) (i : Byte) :
    (s.fillCache k i).statusHit = s.statusHit := rfl

/-! ## `complete` -/

@[simp] theorem complete_te (s : State) :
    (complete s).te = s.te := rfl
@[simp] theorem complete_formatCode (s : State) :
    (complete s).formatCode = s.formatCode := rfl
@[simp] theorem complete_format (s : State) :
    (complete s).format = s.format := rfl
@[simp] theorem complete_opaCode (s : State) :
    (complete s).opaCode = s.opaCode := rfl
@[simp] theorem complete_planeWidth (s : State) :
    (complete s).planeWidth = s.planeWidth := rfl
@[simp] theorem complete_planeHeight (s : State) :
    (complete s).planeHeight = s.planeHeight := rfl
@[simp] theorem complete_storedWidth (s : State) :
    (complete s).storedWidth = s.storedWidth := rfl
@[simp] theorem complete_pixelCount (s : State) :
    (complete s).pixelCount = s.pixelCount := rfl
@[simp] theorem complete_streamLimit (s : State) :
    (complete s).streamLimit = s.streamLimit := rfl
@[simp] theorem complete_bufByte (s : State) (x : Nat) :
    (complete s).bufByte x = s.bufByte x := rfl
@[simp] theorem complete_imgCell (s : State) (x : Nat) :
    (complete s).imgCell x = s.imgCell x := rfl
@[simp] theorem complete_clutEntry (s : State) (x : Nat) :
    (complete s).clutEntry x = s.clutEntry x := rfl
@[simp] theorem complete_cacheCell (s : State) (x : Color16) :
    (complete s).cacheCell x = s.cacheCell x := rfl
@[simp] theorem complete_pageCount (s : State) (x : IndexedFormat) :
    (complete s).pageCount x = s.pageCount x := rfl
@[simp] theorem complete_wholePages (s : State) (x : IndexedFormat) :
    (complete s).wholePages x = s.wholePages x := rfl
@[simp] theorem complete_pageEntry (s : State) (x : IndexedFormat) (y z' : Nat) :
    (complete s).pageEntry x y z' = s.pageEntry x y z' := rfl
@[simp] theorem complete_resolve (s : State) (x : IndexedFormat) (y : Nat) (z' : RGBA) :
    (complete s).resolve x y z' = s.resolve x y z' := rfl

/-! ## `takeFault` -/

@[simp] theorem takeFault_te (s : State) (e : ErrorKind) :
    (takeFault e s).te = s.te := rfl
@[simp] theorem takeFault_formatCode (s : State) (e : ErrorKind) :
    (takeFault e s).formatCode = s.formatCode := rfl
@[simp] theorem takeFault_format (s : State) (e : ErrorKind) :
    (takeFault e s).format = s.format := rfl
@[simp] theorem takeFault_opaCode (s : State) (e : ErrorKind) :
    (takeFault e s).opaCode = s.opaCode := rfl
@[simp] theorem takeFault_planeWidth (s : State) (e : ErrorKind) :
    (takeFault e s).planeWidth = s.planeWidth := rfl
@[simp] theorem takeFault_planeHeight (s : State) (e : ErrorKind) :
    (takeFault e s).planeHeight = s.planeHeight := rfl
@[simp] theorem takeFault_storedWidth (s : State) (e : ErrorKind) :
    (takeFault e s).storedWidth = s.storedWidth := rfl
@[simp] theorem takeFault_pixelCount (s : State) (e : ErrorKind) :
    (takeFault e s).pixelCount = s.pixelCount := rfl
@[simp] theorem takeFault_streamLimit (s : State) (e : ErrorKind) :
    (takeFault e s).streamLimit = s.streamLimit := rfl
@[simp] theorem takeFault_bufByte (s : State) (e : ErrorKind) (x : Nat) :
    (takeFault e s).bufByte x = s.bufByte x := rfl
@[simp] theorem takeFault_imgCell (s : State) (e : ErrorKind) (x : Nat) :
    (takeFault e s).imgCell x = s.imgCell x := rfl
@[simp] theorem takeFault_clutEntry (s : State) (e : ErrorKind) (x : Nat) :
    (takeFault e s).clutEntry x = s.clutEntry x := rfl
@[simp] theorem takeFault_cacheCell (s : State) (e : ErrorKind) (x : Color16) :
    (takeFault e s).cacheCell x = s.cacheCell x := rfl
@[simp] theorem takeFault_pageCount (s : State) (e : ErrorKind) (x : IndexedFormat) :
    (takeFault e s).pageCount x = s.pageCount x := rfl
@[simp] theorem takeFault_wholePages (s : State) (e : ErrorKind) (x : IndexedFormat) :
    (takeFault e s).wholePages x = s.wholePages x := rfl
@[simp] theorem takeFault_pageEntry (s : State) (e : ErrorKind) (x : IndexedFormat) (y z' : Nat) :
    (takeFault e s).pageEntry x y z' = s.pageEntry x y z' := rfl
@[simp] theorem takeFault_resolve (s : State) (e : ErrorKind) (x : IndexedFormat) (y : Nat) (z' : RGBA) :
    (takeFault e s).resolve x y z' = s.resolve x y z' := rfl

/-! ## `withPending` -/

@[simp] theorem withPending_te (s : State) (r : List HostAction) :
    (s.withPending r).te = s.te := rfl
@[simp] theorem withPending_formatCode (s : State) (r : List HostAction) :
    (s.withPending r).formatCode = s.formatCode := rfl
@[simp] theorem withPending_format (s : State) (r : List HostAction) :
    (s.withPending r).format = s.format := rfl
@[simp] theorem withPending_opaCode (s : State) (r : List HostAction) :
    (s.withPending r).opaCode = s.opaCode := rfl
@[simp] theorem withPending_planeWidth (s : State) (r : List HostAction) :
    (s.withPending r).planeWidth = s.planeWidth := rfl
@[simp] theorem withPending_planeHeight (s : State) (r : List HostAction) :
    (s.withPending r).planeHeight = s.planeHeight := rfl
@[simp] theorem withPending_storedWidth (s : State) (r : List HostAction) :
    (s.withPending r).storedWidth = s.storedWidth := rfl
@[simp] theorem withPending_pixelCount (s : State) (r : List HostAction) :
    (s.withPending r).pixelCount = s.pixelCount := rfl
@[simp] theorem withPending_streamLimit (s : State) (r : List HostAction) :
    (s.withPending r).streamLimit = s.streamLimit := rfl
@[simp] theorem withPending_bufByte (s : State) (r : List HostAction) (x : Nat) :
    (s.withPending r).bufByte x = s.bufByte x := rfl
@[simp] theorem withPending_imgCell (s : State) (r : List HostAction) (x : Nat) :
    (s.withPending r).imgCell x = s.imgCell x := rfl
@[simp] theorem withPending_clutEntry (s : State) (r : List HostAction) (x : Nat) :
    (s.withPending r).clutEntry x = s.clutEntry x := rfl
@[simp] theorem withPending_cacheCell (s : State) (r : List HostAction) (x : Color16) :
    (s.withPending r).cacheCell x = s.cacheCell x := rfl
@[simp] theorem withPending_pageCount (s : State) (r : List HostAction) (x : IndexedFormat) :
    (s.withPending r).pageCount x = s.pageCount x := rfl
@[simp] theorem withPending_wholePages (s : State) (r : List HostAction) (x : IndexedFormat) :
    (s.withPending r).wholePages x = s.wholePages x := rfl
@[simp] theorem withPending_pageEntry (s : State) (r : List HostAction) (x : IndexedFormat) (y z' : Nat) :
    (s.withPending r).pageEntry x y z' = s.pageEntry x y z' := rfl
@[simp] theorem withPending_resolve (s : State) (r : List HostAction) (x : IndexedFormat) (y : Nat) (z' : RGBA) :
    (s.withPending r).resolve x y z' = s.resolve x y z' := rfl
@[simp] theorem withPending_statusErr (s : State) (r : List HostAction) :
    (s.withPending r).statusErr = s.statusErr := rfl
@[simp] theorem withPending_statusHit (s : State) (r : List HostAction) :
    (s.withPending r).statusHit = s.statusHit := rfl

/-! ## `addReply` -/

@[simp] theorem addReply_te (s : State) (r : Reply) :
    (s.addReply r).te = s.te := rfl
@[simp] theorem addReply_formatCode (s : State) (r : Reply) :
    (s.addReply r).formatCode = s.formatCode := rfl
@[simp] theorem addReply_format (s : State) (r : Reply) :
    (s.addReply r).format = s.format := rfl
@[simp] theorem addReply_opaCode (s : State) (r : Reply) :
    (s.addReply r).opaCode = s.opaCode := rfl
@[simp] theorem addReply_planeWidth (s : State) (r : Reply) :
    (s.addReply r).planeWidth = s.planeWidth := rfl
@[simp] theorem addReply_planeHeight (s : State) (r : Reply) :
    (s.addReply r).planeHeight = s.planeHeight := rfl
@[simp] theorem addReply_storedWidth (s : State) (r : Reply) :
    (s.addReply r).storedWidth = s.storedWidth := rfl
@[simp] theorem addReply_pixelCount (s : State) (r : Reply) :
    (s.addReply r).pixelCount = s.pixelCount := rfl
@[simp] theorem addReply_streamLimit (s : State) (r : Reply) :
    (s.addReply r).streamLimit = s.streamLimit := rfl
@[simp] theorem addReply_bufByte (s : State) (r : Reply) (x : Nat) :
    (s.addReply r).bufByte x = s.bufByte x := rfl
@[simp] theorem addReply_imgCell (s : State) (r : Reply) (x : Nat) :
    (s.addReply r).imgCell x = s.imgCell x := rfl
@[simp] theorem addReply_clutEntry (s : State) (r : Reply) (x : Nat) :
    (s.addReply r).clutEntry x = s.clutEntry x := rfl
@[simp] theorem addReply_cacheCell (s : State) (r : Reply) (x : Color16) :
    (s.addReply r).cacheCell x = s.cacheCell x := rfl
@[simp] theorem addReply_pageCount (s : State) (r : Reply) (x : IndexedFormat) :
    (s.addReply r).pageCount x = s.pageCount x := rfl
@[simp] theorem addReply_wholePages (s : State) (r : Reply) (x : IndexedFormat) :
    (s.addReply r).wholePages x = s.wholePages x := rfl
@[simp] theorem addReply_pageEntry (s : State) (r : Reply) (x : IndexedFormat) (y z' : Nat) :
    (s.addReply r).pageEntry x y z' = s.pageEntry x y z' := rfl
@[simp] theorem addReply_resolve (s : State) (r : Reply) (x : IndexedFormat) (y : Nat) (z' : RGBA) :
    (s.addReply r).resolve x y z' = s.resolve x y z' := rfl
@[simp] theorem addReply_statusErr (s : State) (r : Reply) :
    (s.addReply r).statusErr = s.statusErr := rfl
@[simp] theorem addReply_statusHit (s : State) (r : Reply) :
    (s.addReply r).statusHit = s.statusHit := rfl

/-! ## `commitParse` -/

@[simp] theorem commitParse_te (s : State) (m : Nat) (c : ClutBlock) (z : Nat) (r : Rect) (w o : Nat) :
    (s.commitParse m c z r w o).te = s.te := rfl
@[simp] theorem commitParse_opaCode (s : State) (m : Nat) (c : ClutBlock) (z : Nat) (r : Rect) (w o : Nat) :
    (s.commitParse m c z r w o).opaCode = s.opaCode := rfl
@[simp] theorem commitParse_streamLimit (s : State) (m : Nat) (c : ClutBlock) (z : Nat) (r : Rect) (w o : Nat) :
    (s.commitParse m c z r w o).streamLimit = s.streamLimit := rfl
@[simp] theorem commitParse_bufByte (s : State) (m : Nat) (c : ClutBlock) (z : Nat) (r : Rect) (w o : Nat) (x : Nat) :
    (s.commitParse m c z r w o).bufByte x = s.bufByte x := rfl
@[simp] theorem commitParse_imgCell (s : State) (m : Nat) (c : ClutBlock) (z : Nat) (r : Rect) (w o : Nat) (x : Nat) :
    (s.commitParse m c z r w o).imgCell x = s.imgCell x := rfl
@[simp] theorem commitParse_statusErr (s : State) (m : Nat) (c : ClutBlock) (z : Nat) (r : Rect) (w o : Nat) :
    (s.commitParse m c z r w o).statusErr = s.statusErr := rfl
@[simp] theorem commitParse_statusHit (s : State) (m : Nat) (c : ClutBlock) (z : Nat) (r : Rect) (w o : Nat) :
    (s.commitParse m c z r w o).statusHit = s.statusHit := rfl

end Sys2Proof.Machine
end

