-- ==== Sys2Proof/Laws/Memory.lean ====
section
/-!
SUPPORT. The laws of the memories: read after write, the canonical form, and what the byte and cell lists
read from them hold.
-/

namespace Sys2Proof.Machine

/-! ## One cell -/

@[simp] theorem lookup_nil {w : Nat} (a : Nat) : Memory.lookup ([] : Memory w) a = none := rfl

theorem lookup_cons {w : Nat} (k : Nat) (v : BitVec w) (m : Memory w) (a : Nat) :
    Memory.lookup ((k, v) :: m) a = if a = k then some v else Memory.lookup m a := rfl

theorem lookup_store {w : Nat} (m : Memory w) (a : Nat) (x : BitVec w) (b : Nat) :
    Memory.lookup (Memory.store m a x) b = if b = a then some x else Memory.lookup m b := by
  induction m with
  | nil => simp [Memory.store, lookup_cons]
  | cons e m ih =>
    obtain ⟨k, v⟩ := e
    rw [Memory.store]
    split
    · rw [lookup_cons]
    · split
      · subst_vars
        by_cases hb : b = k <;> simp [lookup_cons, hb]
      · rename_i hne
        by_cases hb : b = k
        · subst hb
          simp [lookup_cons, Ne.symm hne]
        · simp [lookup_cons, hb, ih]

@[simp] theorem lookup_store_same {w : Nat} (m : Memory w) (a : Nat) (x : BitVec w) :
    Memory.lookup (Memory.store m a x) a = some x := by simp [lookup_store]

theorem lookup_store_other {w : Nat} (m : Memory w) {a b : Nat} (x : BitVec w) (h : b ≠ a) :
    Memory.lookup (Memory.store m a x) b = Memory.lookup m b := by simp [lookup_store, h]

/-! ## A run of cells -/

theorem lookup_storeRun {w : Nat} (xs : List (BitVec w)) (m : Memory w) (a b : Nat) :
    Memory.lookup (Memory.storeRun m a xs) b =
      if a ≤ b ∧ b < a + xs.length then xs[b - a]? else Memory.lookup m b := by
  induction xs generalizing m a with
  | nil =>
    have h : ¬(a ≤ b ∧ b < a) := by omega
    simp [Memory.storeRun, h]
  | cons x xs ih =>
    rw [Memory.storeRun, ih, lookup_store]
    by_cases hb : b = a
    · subst hb
      have h : ¬(b + 1 ≤ b ∧ b < b + 1 + xs.length) := by omega
      simp
    · by_cases hr : a + 1 ≤ b ∧ b < a + 1 + xs.length
      · have h' : a ≤ b ∧ b < a + (xs.length + 1) := by omega
        obtain ⟨j, rfl⟩ : ∃ j, b = a + 1 + j := ⟨b - (a + 1), by omega⟩
        have e : a + 1 + j - a = j + 1 := by omega
        simp [hr, h', e]
      · have h' : ¬(a ≤ b ∧ b < a + (xs.length + 1)) := by omega
        rw [if_neg hr, if_neg hb, if_neg (by simpa using h')]

theorem lookup_storeRun_outside {w : Nat} (xs : List (BitVec w)) (m : Memory w) {a b : Nat}
    (h : b < a ∨ a + xs.length ≤ b) :
    Memory.lookup (Memory.storeRun m a xs) b = Memory.lookup m b := by
  rw [lookup_storeRun, if_neg (by omega)]

theorem lookup_storeRun_inside {w : Nat} (xs : List (BitVec w)) (m : Memory w) {a k : Nat}
    (h : k < xs.length) : Memory.lookup (Memory.storeRun m a xs) (a + k) = some xs[k] := by
  rw [lookup_storeRun, if_pos (by omega)]
  simp [h]

/-! ## The canonical form -/

theorem mem_of_mem_store {w : Nat} {m : Memory w} {a : Nat} {x : BitVec w} {e : Nat × BitVec w}
    (h : e ∈ Memory.store m a x) : e = (a, x) ∨ e ∈ m := by
  induction m with
  | nil => simpa [Memory.store] using h
  | cons c m ih =>
    obtain ⟨k, v⟩ := c
    rw [Memory.store] at h
    split at h
    · simpa using h
    · split at h
      · rcases List.mem_cons.1 h with h | h
        · exact .inl h
        · exact .inr (List.mem_cons_of_mem _ h)
      · rcases List.mem_cons.1 h with h | h
        · exact .inr (by simp [h])
        · exact (ih h).imp id (List.mem_cons_of_mem _)

theorem store_wf {w : Nat} {m : Memory w} (hm : Memory.wf m) (a : Nat) (x : BitVec w) :
    Memory.wf (Memory.store m a x) := by
  induction m with
  | nil => simp [Memory.store]
  | cons c m ih =>
    obtain ⟨k, v⟩ := c
    obtain ⟨hk, hm'⟩ := List.pairwise_cons.1 hm
    rw [Memory.store]
    split
    · rename_i hak
      refine List.pairwise_cons.2 ⟨fun e he => ?_, hm⟩
      rcases List.mem_cons.1 he with rfl | he
      · exact hak
      · exact Nat.lt_trans hak (hk e he)
    · split
      · rename_i h
        subst h
        exact List.pairwise_cons.2 ⟨hk, hm'⟩
      · refine List.pairwise_cons.2 ⟨fun e he => ?_, ih hm'⟩
        rcases mem_of_mem_store he with rfl | he
        · show k < a
          omega
        · exact hk e he

theorem storeRun_wf {w : Nat} (xs : List (BitVec w)) {m : Memory w} (hm : Memory.wf m) (a : Nat) :
    Memory.wf (Memory.storeRun m a xs) := by
  induction xs generalizing m a with
  | nil => exact hm
  | cons x xs ih => exact ih (store_wf hm a x) (a + 1)

theorem mem_of_mem_storeRun {w : Nat} (xs : List (BitVec w)) {m : Memory w} {a : Nat}
    {e : Nat × BitVec w} (h : e ∈ Memory.storeRun m a xs) :
    (a ≤ e.1 ∧ e.1 < a + xs.length) ∨ e ∈ m := by
  induction xs generalizing m a with
  | nil => exact .inr h
  | cons x xs ih =>
    rcases ih h with ⟨h1, h2⟩ | h
    · exact .inl ⟨by omega, by simp only [List.length_cons]; omega⟩
    · rcases mem_of_mem_store h with rfl | h
      · exact .inl ⟨by simp, by simp⟩
      · exact .inr h

/-- Filling a cell that was empty adds one entry. -/
theorem length_store_of_empty {w : Nat} {m : Memory w} {a : Nat} (x : BitVec w)
    (h : Memory.lookup m a = none) : (Memory.store m a x).length = m.length + 1 := by
  induction m with
  | nil => rfl
  | cons c m ih =>
    obtain ⟨k, v⟩ := c
    rw [lookup_cons] at h
    have hne : a ≠ k := by
      rintro rfl
      simp at h
    rw [if_neg hne] at h
    rw [Memory.store]
    split
    · rfl
    · simp [ih h]

/-- A canonical memory with addresses below `n` lists at most `n` cells. -/
theorem length_le_of_wf {w : Nat} {m : Memory w} (hm : Memory.wf m) {n : Nat}
    (hn : ∀ e ∈ m, e.1 < n) : m.length ≤ n := by
  have hmap : (m.map Prod.fst).Nodup := by
    rw [List.Nodup, List.pairwise_map]
    exact hm.imp fun h => Nat.ne_of_lt h
  have hsub : m.map Prod.fst ⊆ List.range n := by
    intro k hk
    obtain ⟨e, he, rfl⟩ := List.mem_map.1 hk
    exact List.mem_range.2 (hn e he)
  simpa using (hmap.subperm hsub).length_le

/-! ## Bytes and integers -/

@[simp] theorem natToBytes_length (n v : Nat) : (natToBytes n v).length = n := by
  induction n generalizing v with
  | zero => rfl
  | succ n ih => simp [natToBytes, ih]

theorem bytesToNat_lt (bs : List Byte) : bytesToNat bs < 256 ^ bs.length := by
  induction bs with
  | nil => simp [bytesToNat]
  | cons b bs ih =>
    have hb : b.toNat < 256 := b.isLt
    simp only [bytesToNat, List.length_cons, pow_succ]
    omega

theorem bytesToNat_natToBytes (n v : Nat) : bytesToNat (natToBytes n v) = v % 256 ^ n := by
  induction n generalizing v with
  | zero => simp [natToBytes, bytesToNat, Nat.mod_one]
  | succ n ih =>
    have e : 256 ^ (n + 1) = 256 * 256 ^ n := by rw [pow_succ, Nat.mul_comm]
    rw [natToBytes, bytesToNat, ih, BitVec.toNat_ofNat, e, Nat.mod_mul]

theorem natToBytes_bytesToNat (bs : List Byte) : natToBytes bs.length (bytesToNat bs) = bs := by
  induction bs with
  | nil => rfl
  | cons b bs ih =>
    have hb : b.toNat < 256 := b.isLt
    have hd : (b.toNat + 256 * bytesToNat bs) / 256 = bytesToNat bs := by omega
    have hm : BitVec.ofNat 8 (b.toNat + 256 * bytesToNat bs) = b := by
      apply BitVec.eq_of_toNat_eq
      simp only [BitVec.toNat_ofNat]
      omega
    simp only [List.length_cons, natToBytes, bytesToNat, hd, hm, ih]

/-! ## Runs of bytes, cells and entries -/

@[simp] theorem bufBytes_length (s : State) (a n : Nat) : (s.bufBytes a n).length = n := by
  induction n generalizing a with
  | zero => rfl
  | succ n ih => simp [State.bufBytes, ih]

theorem bufBytes_getElem? (s : State) (a n k : Nat) :
    (s.bufBytes a n)[k]? = if k < n then some (s.bufByte (a + k)) else none := by
  induction n generalizing a k with
  | zero => simp [State.bufBytes]
  | succ n ih =>
    cases k with
    | zero => simp [State.bufBytes]
    | succ k =>
      have e : a + 1 + k = a + (k + 1) := by omega
      simp [State.bufBytes, ih, e]

theorem bufBytes_congr {s t : State} {a n : Nat}
    (h : ∀ k < n, s.bufByte (a + k) = t.bufByte (a + k)) : s.bufBytes a n = t.bufBytes a n := by
  apply List.ext_getElem?
  intro k
  rw [bufBytes_getElem?, bufBytes_getElem?]
  split
  · rw [h k ‹_›]
  · rfl

theorem bufRead_congr {s t : State} {a n : Nat}
    (h : ∀ k < n, s.bufByte (a + k) = t.bufByte (a + k)) : s.bufRead a n = t.bufRead a n := by
  rw [State.bufRead, State.bufRead, bufBytes_congr h]

theorem bufRead_lt (s : State) (a n : Nat) : s.bufRead a n < 256 ^ n := by
  simpa [State.bufRead] using bytesToNat_lt (s.bufBytes a n)

@[simp] theorem imgCells_length (s : State) (i n : Nat) : (s.imgCells i n).length = n := by
  induction n generalizing i with
  | zero => rfl
  | succ n ih => simp [State.imgCells, ih]

theorem imgCells_getElem? (s : State) (i n k : Nat) :
    (s.imgCells i n)[k]? = if k < n then some (s.imgCell (i + k)) else none := by
  induction n generalizing i k with
  | zero => simp [State.imgCells]
  | succ n ih =>
    cases k with
    | zero => simp [State.imgCells]
    | succ k =>
      have e : i + 1 + k = i + (k + 1) := by omega
      simp [State.imgCells, ih, e]

@[simp] theorem bufEntries_length (s : State) (a n : Nat) : (s.bufEntries a n).length = n := by
  induction n generalizing a with
  | zero => rfl
  | succ n ih => simp [State.bufEntries, ih]

theorem bufEntries_getElem? (s : State) (a n k : Nat) :
    (s.bufEntries a n)[k]? =
      if k < n then some (BitVec.ofNat 16 (s.bufRead (a + 2 * k) 2)) else none := by
  induction n generalizing a k with
  | zero => simp [State.bufEntries]
  | succ n ih =>
    cases k with
    | zero => simp [State.bufEntries]
    | succ k =>
      have e : a + 2 + 2 * k = a + 2 * (k + 1) := by omega
      simp [State.bufEntries, ih, e]

@[simp] theorem clutEntries_length (s : State) (k n : Nat) : (s.clutEntries k n).length = n := by
  induction n generalizing k with
  | zero => rfl
  | succ n ih => simp [State.clutEntries, ih]

theorem clutEntries_getElem? (s : State) (i n k : Nat) :
    (s.clutEntries i n)[k]? = if k < n then some (s.clutEntry (i + k)) else none := by
  induction n generalizing i k with
  | zero => simp [State.clutEntries]
  | succ n ih =>
    cases k with
    | zero => simp [State.clutEntries]
    | succ k =>
      have e : i + 1 + k = i + (k + 1) := by omega
      simp [State.clutEntries, ih, e]

@[simp] theorem entryBytes_length (cs : List Color16) : (entryBytes cs).length = 2 * cs.length := by
  induction cs with
  | nil => rfl
  | cons c cs ih => simp [entryBytes, ih]; omega

/-- Entry `k` of a raw CLUT block: its low byte, then its high byte (30_encoding R109). -/
theorem entryBytes_getElem? (cs : List Color16) (k : Nat) :
    (entryBytes cs)[2 * k]? = (cs[k]?).map (fun c => BitVec.ofNat 8 c.toNat) ∧
      (entryBytes cs)[2 * k + 1]? = (cs[k]?).map (fun c => BitVec.ofNat 8 (c.toNat / 256)) := by
  induction cs generalizing k with
  | nil => simp [entryBytes]
  | cons c cs ih =>
    cases k with
    | zero => simp [entryBytes, natToBytes]
    | succ k =>
      have e : 2 * (k + 1) = 2 * k + 2 := by omega
      simp only [entryBytes, natToBytes, List.cons_append, List.nil_append, e,
        List.getElem?_cons_succ]
      exact ih k

/-! ## Reading after a run has been written -/

theorem bufByte_writeBuf (s : State) (a : Nat) (bs : List Byte) (x : Nat) :
    (s.writeBuf a bs).bufByte x =
      if a ≤ x ∧ x < a + bs.length then (bs[x - a]?).getD 0 else s.bufByte x := by
  simp only [State.bufByte, writeBuf_buf, writeBuf_epoch, lookup_storeRun]
  split
  · rename_i h
    have hl : x - a < bs.length := by omega
    simp [hl]
  · rfl

theorem bufByte_writeBuf_outside (s : State) {a : Nat} {bs : List Byte} {x : Nat}
    (h : x < a ∨ a + bs.length ≤ x) : (s.writeBuf a bs).bufByte x = s.bufByte x := by
  rw [bufByte_writeBuf, if_neg (by omega)]

theorem bufByte_writeBuf_inside (s : State) {a k : Nat} {bs : List Byte} (h : k < bs.length) :
    (s.writeBuf a bs).bufByte (a + k) = bs[k] := by
  rw [bufByte_writeBuf, if_pos (by omega)]
  simp [h]

theorem imgCell_writeImg (s : State) (i : Nat) (ps : List Word) (x : Nat) :
    (s.writeImg i ps).imgCell x =
      if i ≤ x ∧ x < i + ps.length then (ps[x - i]?).getD 0 else s.imgCell x := by
  simp only [State.imgCell, writeImg_img, writeImg_epoch, lookup_storeRun]
  split
  · rename_i h
    have hl : x - i < ps.length := by omega
    simp [hl]
  · rfl

theorem imgCell_writeImg_outside (s : State) {i : Nat} {ps : List Word} {x : Nat}
    (h : x < i ∨ i + ps.length ≤ x) : (s.writeImg i ps).imgCell x = s.imgCell x := by
  rw [imgCell_writeImg, if_neg (by omega)]

theorem imgCell_writeImg_inside (s : State) {i k : Nat} {ps : List Word} (h : k < ps.length) :
    (s.writeImg i ps).imgCell (i + k) = ps[k] := by
  rw [imgCell_writeImg, if_pos (by omega)]
  simp [h]

/-! ## The cache -/

theorem cacheCell_fillCache (s : State) (k : Color16) (i : Byte) (k' : Color16) :
    (s.fillCache k i).cacheCell k' = if k' = k then some i else s.cacheCell k' := by
  simp only [State.cacheCell, fillCache_cache, lookup_store]
  by_cases h : k' = k
  · simp [h]
  · simp [h, BitVec.toNat_inj]

@[simp] theorem cacheCell_clearCache (s : State) (k : Color16) : s.clearCache.cacheCell k = none := rfl

end Sys2Proof.Machine
end

