-- ==== Sys2Proof/Laws/Ops.lean ====
section
/-!
SUPPORT. For each shared operation, one lemma that says once everything it can do: checks, endings,
operand formats, page checks, the minimum tracker, the quantizer, the host port.
-/

namespace Sys2Proof.Machine

/-! ## Checks and endings -/

@[simp] theorem require_true (e : ErrorKind) : require true e = .ok () := rfl

@[simp] theorem require_false (e : ErrorKind) : require false e = .error e := rfl

theorem require_eq_ok {c : Bool} {e : ErrorKind} {u : Unit} : require c e = .ok u ↔ c = true := by
  cases c <;> simp [require]

theorem require_eq_error {c : Bool} {e e' : ErrorKind} :
    require c e = .error e' ↔ c = false ∧ e = e' := by
  cases c <;> simp [require]

/-- The bind of checks, peeled from the front. -/
theorem bind_eq_ok {α β : Type} {x : Except ErrorKind α} {k : α → Except ErrorKind β} {b : β} :
    (x >>= k) = .ok b ↔ ∃ a, x = .ok a ∧ k a = .ok b := by
  cases x <;> simp [bind, Except.bind]

theorem bind_eq_error {α β : Type} {x : Except ErrorKind α} {k : α → Except ErrorKind β}
    {e : ErrorKind} :
    (x >>= k) = .error e ↔ x = .error e ∨ ∃ a, x = .ok a ∧ k a = .error e := by
  cases x <;> simp [bind, Except.bind]

@[simp] theorem ok_bind {α β : Type} (a : α) (k : α → Except ErrorKind β) :
    ((Except.ok a : Except ErrorKind α) >>= k) = k a := rfl

@[simp] theorem error_bind {α β : Type} (e : ErrorKind) (k : α → Except ErrorKind β) :
    ((Except.error e : Except ErrorKind α) >>= k) = .error e := rfl

@[simp] theorem pure_eq_ok {α : Type} (a : α) : (pure a : Except ErrorKind α) = .ok a := rfl

@[simp] theorem conclude_ok (s t : State) : conclude s (.ok t) = .next t := rfl

@[simp] theorem conclude_error (s : State) (e : ErrorKind) :
    conclude s (.error e) = .next (takeFault e s) := rfl

/-- A command never stops the model: it ends with its writes or with a fault taken
(44_structure_and_control R250). -/
theorem conclude_eq_next {s t : State} {r : Except ErrorKind State} :
    conclude s r = .next t ↔ r = .ok t ∨ ∃ e, r = .error e ∧ t = takeFault e s := by
  cases r <;> simp [eq_comm]

/-- Whatever a command computed, it ends in a next state. -/
theorem conclude_next (s : State) (r : Except ErrorKind State) : ∃ t, conclude s r = .next t := by
  cases r <;> exact ⟨_, rfl⟩

/-! ## Status words -/

theorem statusErr_takeFault (e : ErrorKind) (s : State) :
    (takeFault e s).statusErr.toNat = e.code := by
  cases e <;> rfl

theorem statusErr_complete (s : State) : (complete s).statusErr = 0 := rfl

theorem statusHit_takeFault (e : ErrorKind) (s : State) : (takeFault e s).statusHit = false := by
  show (statusFaulted e).getLsbD 8 = false
  cases e <;> decide

theorem statusHit_complete (s : State) : (complete s).statusHit = false := by
  show (statusCompleted false).getLsbD 8 = false
  decide

theorem code_pos (e : ErrorKind) : 0 < e.code ∧ e.code ≤ 11 := by
  cases e <;> decide

/-! ## Formats and page checks -/

theorem planeFormatOf_eq_ok {c : Format} {f : PlaneFormat} :
    planeFormatOf c = .ok f ↔ c = .plane f := by
  cases c <;> simp [planeFormatOf]

theorem pageFormatOf_eq_ok {c : Format} {f : IndexedFormat} :
    pageFormatOf c = .ok f ↔ c = .plane (.indexed f) := by
  cases c with
  | plane p => cases p <;> simp [pageFormatOf]
  | mixed => simp [pageFormatOf]
  | invalid => simp [pageFormatOf]

theorem encodeFormatOf_eq_ok {c : Format} {f : EncodeFormat} :
    encodeFormatOf c = .ok f ↔ c = .plane f.plane := by
  cases c with
  | plane p => cases p <;> cases f <;> simp [encodeFormatOf, EncodeFormat.plane]
  | mixed => simp [encodeFormatOf]
  | invalid => simp [encodeFormatOf]

theorem checkPages_eq_ok {s : State} {f : IndexedFormat} :
    s.checkPages = .ok f ↔ s.format = .plane (.indexed f) ∧ s.wholePages f = true := by
  unfold State.checkPages
  simp only [bind_eq_ok, pageFormatOf_eq_ok, require_eq_ok, pure_eq_ok, Except.ok.injEq]
  constructor
  · rintro ⟨g, hg, -, hw, rfl⟩
    exact ⟨hg, hw⟩
  · rintro ⟨hg, hw⟩
    exact ⟨f, hg, (), hw, rfl⟩

theorem checkPage_eq_ok {s : State} {f : IndexedFormat} :
    s.checkPage = .ok f ↔
      s.format = .plane (.indexed f) ∧ s.wholePages f = true ∧ s.page.toNat < s.pageCount f := by
  unfold State.checkPage
  simp only [bind_eq_ok, checkPages_eq_ok, require_eq_ok, pure_eq_ok, Except.ok.injEq,
    decide_eq_true_eq]
  constructor
  · rintro ⟨g, ⟨hg, hw⟩, -, hp, rfl⟩
    exact ⟨hg, hw, hp⟩
  · rintro ⟨hg, hw, hp⟩
    exact ⟨f, ⟨hg, hw⟩, (), hp, rfl⟩

theorem checkPlanePage_eq_ok {s : State} {f : PlaneFormat} {u : Unit} :
    s.checkPlanePage f = .ok u ↔
      ∀ g, f = .indexed g → s.wholePages g = true ∧ s.page.toNat < s.pageCount g := by
  cases f with
  | indexed g =>
    simp only [State.checkPlanePage, bind_eq_ok, require_eq_ok, decide_eq_true_eq,
      PlaneFormat.indexed.injEq, forall_eq']
    exact ⟨fun ⟨_, h⟩ => h, fun h => ⟨(), h⟩⟩
  | direct15 => simp [State.checkPlanePage]
  | direct24 => simp [State.checkPlanePage]

theorem pageSize_pos (f : IndexedFormat) : 0 < f.pageSize ∧ f.pageSize ≤ 256 := by
  cases f <;> decide

theorem streamRead_eq_ok {s : State} {p n v : Nat} :
    s.streamRead p n = .ok v ↔ s.streamAdmitted p n = true ∧ s.bufRead p n = v := by
  unfold State.streamRead
  split <;> simp [*]

theorem streamRect_eq_ok {s : State} {p : Nat} {r : Rect} :
    s.streamRect p = .ok r ↔
      s.streamAdmitted p 8 = true ∧
        r = { x := s.bufRead p 2, y := s.bufRead (p + 2) 2, w := s.bufRead (p + 4) 2,
              h := s.bufRead (p + 6) 2 } := by
  unfold State.streamRect
  simp only [bind_eq_ok, streamRead_eq_ok, pure_eq_ok, Except.ok.injEq, State.streamAdmitted,
    Bool.or_eq_true, decide_eq_true_eq]
  constructor
  · rintro ⟨x, ⟨hx, rfl⟩, y, ⟨hy, rfl⟩, w, ⟨hw, rfl⟩, h, ⟨hh, rfl⟩, rfl⟩
    exact ⟨by omega, rfl⟩
  · rintro ⟨h, rfl⟩
    exact ⟨_, ⟨by omega, rfl⟩, _, ⟨by omega, rfl⟩, _, ⟨by omega, rfl⟩, _, ⟨by omega, rfl⟩, rfl⟩

/-! ## The minimum tracker and the first transparent entry -/

/-- `leastIndex d n` is the least index of `0 .. n` at which `d` is least. -/
theorem leastIndex_spec (d : Nat → Nat) (n : Nat) :
    leastIndex d n ≤ n ∧ (∀ j ≤ n, d (leastIndex d n) ≤ d j) ∧
      ∀ j < leastIndex d n, d (leastIndex d n) < d j := by
  induction n with
  | zero =>
    refine ⟨Nat.le_refl _, fun j hj => ?_, fun j hj => ?_⟩
    · obtain rfl : j = 0 := by omega
      exact Nat.le_refl _
    · exact absurd hj (Nat.not_lt_zero _)
  | succ n ih =>
    obtain ⟨hle, hmin, hfirst⟩ := ih
    rw [leastIndex]
    split
    · rename_i hlt
      refine ⟨Nat.le_refl _, fun j hj => ?_, fun j hj => ?_⟩
      · rcases Nat.lt_or_ge j (n + 1) with h | h
        · exact Nat.le_trans (Nat.le_of_lt hlt) (hmin j (by omega))
        · obtain rfl : j = n + 1 := by omega
          exact Nat.le_refl _
      · exact Nat.lt_of_lt_of_le hlt (hmin j (by omega))
    · rename_i hge
      refine ⟨by omega, fun j hj => ?_, hfirst⟩
      rcases Nat.lt_or_ge j (n + 1) with h | h
      · exact hmin j (by omega)
      · obtain rfl : j = n + 1 := by omega
        omega

theorem ptrans_eq_some {s : State} {f : IndexedFormat} {p i : Nat} :
    s.ptrans f p = some i ↔
      i < f.pageSize ∧ (s.pageEntry f p i).a = 0 ∧ ∀ j < i, (s.pageEntry f p j).a ≠ 0 := by
  unfold State.ptrans
  rw [List.find?_range_eq_some]
  simp
  tauto

theorem resolve_lt (s : State) (f : IndexedFormat) (p : Nat) (px : RGBA) :
    s.resolve f p px < f.pageSize := by
  have hp := (pageSize_pos f).1
  unfold State.resolve
  split
  · cases h : s.ptrans f p with
    | none => simpa using hp
    | some i => simpa using (ptrans_eq_some.1 h).1
  · have := (leastIndex_spec (fun i => dist2 px (s.pageEntry f p i)) (f.pageSize - 1)).1
    unfold State.nearest
    omega

/-! ## The quantizer -/

/-- Everything `quantize` can do (43_quantizer R224): a hit changes nothing, a miss fills one cell. -/
theorem quantize_cases (f : IndexedFormat) (p : Nat) (s : State) (px : RGBA) :
    (∃ i, s.cacheCell (encode16 px) = some i ∧
        quantize f p s px = { index := i, hit := true, after := s }) ∨
      (s.cacheCell (encode16 px) = none ∧
        quantize f p s px =
          { index := BitVec.ofNat 8 (s.resolve f p px), hit := false
            after := s.fillCache (encode16 px) (BitVec.ofNat 8 (s.resolve f p px)) }) := by
  unfold quantize
  split
  · rename_i i h
    exact .inl ⟨i, h, rfl⟩
  · rename_i h
    exact .inr ⟨h, rfl⟩

@[simp] theorem quantizeAll_nil (f : IndexedFormat) (p : Nat) (s : State) :
    quantizeAll f p s [] = ([], s) := rfl

theorem quantizeAll_cons (f : IndexedFormat) (p : Nat) (s : State) (px : RGBA) (pxs : List RGBA) :
    quantizeAll f p s (px :: pxs) =
      ((quantize f p s px).index :: (quantizeAll f p (quantize f p s px).after pxs).1,
        (quantizeAll f p (quantize f p s px).after pxs).2) := rfl

@[simp] theorem quantizeAll_length (f : IndexedFormat) (p : Nat) (pxs : List RGBA) (s : State) :
    (quantizeAll f p s pxs).1.length = pxs.length := by
  induction pxs generalizing s with
  | nil => rfl
  | cons px pxs ih => simp [quantizeAll_cons, ih]

/-- The quantizer changes the cache and `QCNT` and nothing else. -/
theorem quantize_frame (f : IndexedFormat) (p : Nat) (s : State) (px : RGBA) :
    (quantize f p s px).after.clearCache = s.clearCache := by
  rcases quantize_cases f p s px with ⟨i, -, h⟩ | ⟨-, h⟩
  · rw [h]
  · rw [h]
    rfl

theorem quantizeAll_frame (f : IndexedFormat) (p : Nat) (pxs : List RGBA) (s : State) :
    (quantizeAll f p s pxs).2.clearCache = s.clearCache := by
  induction pxs generalizing s with
  | nil => rfl
  | cons px pxs ih => rw [quantizeAll_cons, ih, quantize_frame]

/-- What the quantizer answers for pixel `i` of a list (43_quantizer R224, R230): the cached index of its
key, or, where the cache held none at the start, what steps 2 and 3 give for the first pixel of the list with
that key. -/
theorem quantizeAll_getElem? (f : IndexedFormat) (p : Nat) (pxs : List RGBA) (s : State) (i : Nat)
    (hi : i < pxs.length) :
    (quantizeAll f p s pxs).1[i]? = some (match s.cacheCell (encode16 pxs[i]) with
      | some v => v
      | none => BitVec.ofNat 8 (s.resolve f p
          ((pxs.find? (fun q => encode16 q = encode16 pxs[i])).getD pxs[i]))) := by
  induction pxs generalizing s i with
  | nil => exact absurd hi (Nat.not_lt_zero _)
  | cons px pxs ih =>
    have frame : ∀ k v q, (s.fillCache k v).resolve f p q = s.resolve f p q := fun _ _ _ => rfl
    rw [quantizeAll_cons]
    cases i with
    | zero =>
      rcases quantize_cases f p s px with ⟨j, hj, e⟩ | ⟨hn, e⟩
      · simp [e, hj]
      · simp [e, hn]
    | succ i =>
      simp only [List.length_cons] at hi
      simp only [List.getElem?_cons_succ, List.getElem_cons_succ]
      rcases quantize_cases f p s px with ⟨j, hj, e⟩ | ⟨hn, e⟩
      · simp only [e, ih s i (by omega)]
        cases hc : s.cacheCell (encode16 pxs[i]) with
        | some v => rfl
        | none =>
          have hne : encode16 px ≠ encode16 pxs[i] := by
            intro h
            rw [h, hc] at hj
            cases hj
          simp [hne]
      · simp only [e, ih _ i (show i < pxs.length by omega), cacheCell_fillCache, frame]
        by_cases hk : encode16 pxs[i] = encode16 px
        · simp [hk, hn]
        · simp [hk, Ne.symm hk]

/-- Byte `j` of an Indexed4 plane holds the indices at `2*j` and `2*j + 1` (42_pixel_plane R195). -/
theorem packNibbles_getElem? : ∀ (is : List Byte) (j : Nat) (lo hi : Byte),
    is[2 * j]? = some lo → is[2 * j + 1]? = some hi → (packNibbles is)[j]? = some (lo ||| (hi <<< 4))
  | [], _, _, _, h, _ => by simp at h
  | [_], _, _, _, _, h => by simp at h
  | x :: y :: rest, 0, lo, hi, h, h' => by
    simp only [Nat.mul_zero, Nat.zero_add, List.getElem?_cons_zero, List.getElem?_cons_succ,
      Option.some.injEq] at h h'
    simp [packNibbles, h, h']
  | x :: y :: rest, j + 1, lo, hi, h, h' => by
    have e : 2 * (j + 1) = 2 * j + 2 := by omega
    have e' : 2 * (j + 1) + 1 = 2 * j + 1 + 2 := by omega
    rw [e] at h
    rw [e'] at h'
    simpa [packNibbles] using packNibbles_getElem? rest j lo hi (by simpa using h) (by simpa using h')

theorem packNibbles_length : ∀ is : List Byte, (packNibbles is).length = is.length / 2
  | lo :: hi :: rest => by
    simp only [packNibbles, List.length_cons, packNibbles_length rest]
    omega
  | [_] => by simp [packNibbles]
  | [] => rfl

/-- Clearing commutes with the writes of a plane. -/
theorem clearCache_writeBuf (s : State) (a : Nat) (bs : List Byte) :
    (s.writeBuf a bs).clearCache = s.clearCache.writeBuf a bs := rfl

/-- Encoding an image leaves everything but the cache and `QCNT` as it was (42_pixel_plane R194). -/
theorem encodeImage_frame (s : State) (f : EncodeFormat) :
    (s.encodeImage f).2.clearCache = s.clearCache := by
  cases f with
  | direct15 => rfl
  | indexed g => exact quantizeAll_frame g s.page.toNat s.sourceImage s

@[simp] theorem sourceImage_length (s : State) : s.sourceImage.length = s.pixelCount := by
  simp [State.sourceImage]

@[simp] theorem planeImage_length (s : State) (f : PlaneFormat) :
    (s.planeImage f).length = s.pixelCount := by
  simp [State.planeImage]

theorem planeImage_getElem? (s : State) (f : PlaneFormat) (i : Nat) :
    (s.planeImage f)[i]? = if i < s.pixelCount then some (s.planePixel f i).word else none := by
  unfold State.planeImage
  by_cases h : i < s.pixelCount <;> simp [h]

/-! ## Pixels as words -/

@[simp] theorem ofWord_word (px : RGBA) : RGBA.ofWord px.word = px := by
  obtain ⟨r, g, b, a⟩ := px
  simp only [RGBA.ofWord, RGBA.word, RGBA.mk.injEq]
  refine ⟨?_, ?_, ?_, ?_⟩ <;> ext i hi <;>
    simp only [BitVec.getElem_extractLsb', BitVec.getLsbD_append] <;>
    split_ifs <;> first
      | omega
      | (rw [← BitVec.getLsbD_eq_getElem]; congr 1; omega)

/-! ## The host port -/

theorem advance_idle {s : State} (h : s.pending = []) : advance s = .next s := by
  simp [advance, h]

theorem advance_action {s : State} {a : HostAction} {rest : List HostAction}
    (h : s.pending = a :: rest) : advance s = hostAct a (s.withPending rest) := by
  simp [advance, h]

/-- Everything the host port can do: a command issued, a register stored, a reply given, a memory
written, the reset event, or nothing. -/
theorem hostAct_cases {a : HostAction} {s t : State} (h : hostAct a s = .next t) :
    (∃ w, issue w s = .next t) ∨ (∃ r v, r ≠ RegName.cmd ∧ t = s.storeReg r v) ∨ t = s ∨
      (∃ r, t = s.addReply r) ∨
      (∃ x bs, s.bufAdmitted x bs.length = true ∧ t = s.writeBuf x bs) ∨
      (∃ i ps, s.imgAdmitted i ps.length = true ∧ t = s.writeImg i ps) ∨ t = resetEvent s := by
  cases a with
  | writeReg o v =>
    simp only [hostAct, atRegister] at h
    split at h
    · cases h
    · split at h
      · cases h
      · unfold hostWriteReg at h
        split at h
        · exact .inl ⟨v, h⟩
        · rename_i r hr _
          refine .inr (.inl ⟨r, v, ?_, ?_⟩)
          · rintro rfl
            simp_all
          · injection h with h
            exact h.symm
        · injection h with h
          exact .inr (.inr (.inl h.symm))
  | readReg o =>
    simp only [hostAct, atRegister] at h
    split at h
    · cases h
    · split at h
      · cases h
      · injection h with h
        exact .inr (.inr (.inr (.inl ⟨_, h.symm⟩)))
  | writeBuf x bs =>
    simp only [hostAct] at h
    split at h
    · injection h with h
      exact .inr (.inr (.inr (.inr (.inl ⟨x, bs, ‹_›, h.symm⟩))))
    · cases h
  | readBuf x n =>
    simp only [hostAct] at h
    split at h
    · injection h with h
      exact .inr (.inr (.inr (.inl ⟨_, h.symm⟩)))
    · cases h
  | writeImg i ps =>
    simp only [hostAct] at h
    split at h
    · injection h with h
      exact .inr (.inr (.inr (.inr (.inr (.inl ⟨i, ps, ‹_›, h.symm⟩)))))
    · cases h
  | readImg i n =>
    simp only [hostAct] at h
    split at h
    · injection h with h
      exact .inr (.inr (.inr (.inl ⟨_, h.symm⟩)))
    · cases h
  | reset =>
    simp only [hostAct] at h
    injection h with h
    exact .inr (.inr (.inr (.inr (.inr (.inr h.symm)))))

end Sys2Proof.Machine
end

