-- ==== Sys2Proof/Laws/Exec.lean ====
section
/-!
SUPPORT. What one command can do, said once: `exec_cases`. Later proofs about every command or every step
start from it and do not unfold a meaning again.
-/

namespace Sys2Proof.Machine

/-! ## The faults a command can raise -/

/-- A computation raises only faults a command can raise: any but `IllegalCommand`. -/
def RaisesCommandFaults {α : Type} (x : Except ErrorKind α) : Prop :=
  ∀ e, x = .error e → e ≠ .illegalCommand

theorem raises_ok {α : Type} (a : α) : RaisesCommandFaults (.ok a : Except ErrorKind α) := by
  intro e h
  cases h

theorem raises_require {c : Bool} {e : ErrorKind} (h : e ≠ .illegalCommand) :
    RaisesCommandFaults (require c e) := by
  intro e' he
  rw [← (require_eq_error.1 he).2]
  exact h

theorem raises_bind {α β : Type} {x : Except ErrorKind α} {k : α → Except ErrorKind β}
    (hx : RaisesCommandFaults x) (hk : ∀ a, RaisesCommandFaults (k a)) :
    RaisesCommandFaults (x >>= k) := by
  intro e he
  rcases bind_eq_error.1 he with h | ⟨a, -, h⟩
  · exact hx e h
  · exact hk a e h

theorem raises_planeFormatOf (c : Format) : RaisesCommandFaults (planeFormatOf c) := by
  intro e h
  cases c <;> cases h <;> decide

theorem raises_pageFormatOf (c : Format) : RaisesCommandFaults (pageFormatOf c) := by
  intro e h
  rcases c with ⟨_ | _ | _⟩ | _ | _ <;> cases h <;> decide

theorem raises_encodeFormatOf (c : Format) : RaisesCommandFaults (encodeFormatOf c) := by
  intro e h
  rcases c with ⟨_ | _ | _⟩ | _ | _ <;> cases h <;> decide

theorem raises_checkPages (s : State) : RaisesCommandFaults s.checkPages :=
  raises_bind (raises_pageFormatOf _) fun _ =>
    raises_bind (raises_require (by decide)) fun _ => raises_ok _

theorem raises_checkPage (s : State) : RaisesCommandFaults s.checkPage :=
  raises_bind (raises_checkPages s) fun _ =>
    raises_bind (raises_require (by decide)) fun _ => raises_ok _

theorem raises_checkPlanePage (s : State) (f : PlaneFormat) :
    RaisesCommandFaults (s.checkPlanePage f) := by
  cases f with
  | indexed g => exact raises_bind (raises_require (by decide)) fun _ => raises_require (by decide)
  | direct15 => exact raises_ok _
  | direct24 => exact raises_ok _

theorem raises_streamRead (s : State) (p n : Nat) : RaisesCommandFaults (s.streamRead p n) := by
  intro e h
  unfold State.streamRead at h
  split at h <;> cases h
  decide

theorem raises_streamRect (s : State) (p : Nat) : RaisesCommandFaults (s.streamRect p) :=
  raises_bind (raises_streamRead _ _ _) fun _ => raises_bind (raises_streamRead _ _ _) fun _ =>
    raises_bind (raises_streamRead _ _ _) fun _ => raises_bind (raises_streamRead _ _ _) fun _ =>
      raises_ok _

theorem raises_clutBlock (s : State) (hc : Bool) (f : PlaneFormat) (p : Nat) :
    RaisesCommandFaults (s.clutBlock hc f p) := by
  cases hc with
  | false => exact raises_ok _
  | true =>
    exact raises_bind (raises_streamRead _ _ _) fun _ => raises_bind (raises_streamRect _ _) fun _ =>
      raises_bind (raises_require (by decide)) fun _ =>
        raises_bind (raises_require (by decide)) fun _ =>
          raises_bind (raises_require (by decide)) fun _ =>
            raises_bind (raises_require (by decide)) fun _ => raises_ok _

theorem raises_clutld (s : State) : RaisesCommandFaults (clutld s) :=
  raises_bind (raises_require (by decide)) fun _ =>
    raises_bind (raises_require (by decide)) fun _ => raises_ok _

theorem raises_split (s : State) : RaisesCommandFaults (split s) :=
  raises_bind (raises_checkPages s) fun _ => raises_ok _

theorem raises_pagerd (s : State) : RaisesCommandFaults (pagerd s) :=
  raises_bind (raises_checkPage s) fun _ =>
    raises_bind (raises_require (by decide)) fun _ => raises_ok _

theorem raises_clutst (s : State) : RaisesCommandFaults (clutst s) :=
  raises_bind (raises_require (by decide)) fun _ => raises_ok _

theorem raises_parse (s : State) : RaisesCommandFaults (parse s) :=
  raises_bind (raises_streamRead _ _ _) fun _ => raises_bind (raises_require (by decide)) fun _ =>
    raises_bind (raises_streamRead _ _ _) fun _ => raises_bind (raises_planeFormatOf _) fun _ =>
      raises_bind (raises_clutBlock _ _ _ _) fun _ => raises_bind (raises_streamRead _ _ _) fun _ =>
        raises_bind (raises_streamRect _ _) fun _ =>
          raises_bind (raises_require (by decide)) fun _ => raises_ok _

theorem raises_geom (s : State) : RaisesCommandFaults (geom s) :=
  raises_bind (raises_planeFormatOf _) fun _ => raises_ok _

theorem raises_unpack (s : State) : RaisesCommandFaults (unpack s) :=
  raises_bind (raises_planeFormatOf _) fun _ => raises_bind (raises_checkPlanePage _ _) fun _ =>
    raises_bind (raises_require (by decide)) fun _ =>
      raises_bind (raises_require (by decide)) fun _ =>
        raises_bind (raises_require (by decide)) fun _ => raises_ok _

theorem raises_pack (s : State) : RaisesCommandFaults (pack s) :=
  raises_bind (raises_encodeFormatOf _) fun _ => raises_bind (raises_checkPlanePage _ _) fun _ =>
    raises_bind (raises_require (by decide)) fun _ =>
      raises_bind (raises_require (by decide)) fun _ =>
        raises_bind (raises_require (by decide)) fun _ =>
          raises_bind (raises_require (by decide)) fun _ => raises_ok _

theorem raises_qmatch (s : State) : RaisesCommandFaults (qmatch s) :=
  raises_bind (raises_checkPage s) fun _ => raises_ok _

/-! ## What a command that raises nothing does -/

theorem clutld_eq_ok {s t : State} :
    clutld s = .ok t ↔ s.clutn.toNat ≤ s.params.clutMax ∧
      s.streamAdmitted s.paloff.toNat (2 * s.clutn.toNat) = true ∧
      t = complete ((s.loadClut (s.bufEntries s.paloff.toNat s.clutn.toNat)).clearCache) := by
  simp only [clutld, bind_eq_ok, require_eq_ok, pure_eq_ok, Except.ok.injEq, decide_eq_true_eq,
    exists_and_left, exists_const]
  tauto

theorem split_eq_ok {s t : State} :
    split s = .ok t ↔ ∃ f, s.checkPages = .ok f ∧
      t = complete (s.setRes (BitVec.ofNat 32 (s.pageCount f))) := by
  simp only [split, bind_eq_ok, pure_eq_ok, Except.ok.injEq, @eq_comm _ _ t]

theorem pagerd_eq_ok {s t : State} :
    pagerd s = .ok t ↔ ∃ f, s.checkPage = .ok f ∧ s.opa.toNat < f.pageSize ∧
      t = complete (s.setRes (s.pageEntry f s.page.toNat s.opa.toNat).word) := by
  simp only [pagerd, bind_eq_ok, require_eq_ok, pure_eq_ok, Except.ok.injEq, decide_eq_true_eq,
    exists_and_left, exists_const, @eq_comm _ _ t]

theorem clutst_eq_ok {s t : State} :
    clutst s = .ok t ↔ s.bufAdmitted s.dst.toNat (2 * s.clen.toNat) = true ∧
      t = complete (s.writeBuf s.dst.toNat (entryBytes (s.clutEntries 0 s.clen.toNat))) := by
  simp only [clutst, bind_eq_ok, require_eq_ok, pure_eq_ok, Except.ok.injEq, exists_and_left,
    exists_const]
  tauto

theorem clutBlock_eq_ok {s : State} {hc : Bool} {f : PlaneFormat} {p : Nat} {c : ClutBlock} :
    s.clutBlock hc f p = .ok c ↔
      (hc = false ∧ c = noClut p) ∨
        (hc = true ∧ s.streamAdmitted p 12 = true ∧ 12 ≤ s.bufRead p 4 ∧
          (s.bufRead p 4 - 12) / 2 ≤ s.params.clutMax ∧
          s.streamAdmitted (p + 12) (2 * ((s.bufRead p 4 - 12) / 2)) = true ∧
          PlaneFormat.clutCountOk f ((s.bufRead p 4 - 12) / 2) = true ∧
          c = { size := s.bufRead p 4
                rect := { x := s.bufRead (p + 4) 2, y := s.bufRead (p + 6) 2,
                          w := s.bufRead (p + 8) 2, h := s.bufRead (p + 10) 2 }
                paloff := p + 12
                entries := s.bufEntries (p + 12) ((s.bufRead p 4 - 12) / 2)
                resume := p + 12 + 2 * ((s.bufRead p 4 - 12) / 2) }) := by
  cases hc with
  | false => simp [State.clutBlock, @eq_comm _ (noClut p) c]
  | true =>
    simp only [State.clutBlock, if_true, State.walkClut, bind_eq_ok, streamRead_eq_ok,
      streamRect_eq_ok, require_eq_ok, pure_eq_ok, Except.ok.injEq, decide_eq_true_eq,
      Bool.true_eq_false, false_and, false_or, true_and]
    constructor
    · rintro ⟨_, ⟨h1, rfl⟩, r, ⟨h2, rfl⟩, -, h3, -, h4, -, h5, -, h6, rfl⟩
      refine ⟨?_, h3, h4, h5, h6, rfl⟩
      simp only [State.streamAdmitted, Bool.or_eq_true, decide_eq_true_eq] at h2 ⊢
      omega
    · rintro ⟨h2, h3, h4, h5, h6, rfl⟩
      simp only [State.streamAdmitted, Bool.or_eq_true, decide_eq_true_eq] at h2
      refine ⟨_, ⟨?_, rfl⟩, _, ⟨?_, rfl⟩, (), h3, (), h4, (), h5, (), h6, rfl⟩ <;>
        simp only [State.streamAdmitted, Bool.or_eq_true, decide_eq_true_eq] <;> omega

theorem parse_eq_ok {s t : State} :
    parse s = .ok t ↔ ∃ f c,
      s.streamAdmitted s.spos.toNat 4 = true ∧ s.bufRead s.spos.toNat 4 = structureMagic ∧
      s.streamAdmitted (s.spos.toNat + 4) 4 = true ∧
      Format.ofCode (BitVec.ofNat 3 (s.bufRead (s.spos.toNat + 4) 4)) = .plane f ∧
      s.clutBlock (s.bufRead (s.spos.toNat + 4) 4 / 8 % 2 = 1) f (s.spos.toNat + 8) = .ok c ∧
      s.streamAdmitted c.resume 12 = true ∧
      s.streamAdmitted (c.resume + 12)
        (f.planeBytes (f.correctWidth (s.bufRead (c.resume + 8) 2)) (s.bufRead (c.resume + 10) 2)) =
          true ∧
      t = complete (s.commitParse (s.bufRead (s.spos.toNat + 4) 4 % 16) c (s.bufRead c.resume 4)
        { x := s.bufRead (c.resume + 4) 2, y := s.bufRead (c.resume + 6) 2,
          w := s.bufRead (c.resume + 8) 2, h := s.bufRead (c.resume + 10) 2 }
        (f.correctWidth (s.bufRead (c.resume + 8) 2)) (c.resume + 12)) := by
  simp only [parse, bind_eq_ok, streamRead_eq_ok, require_eq_ok, planeFormatOf_eq_ok,
    streamRect_eq_ok, pure_eq_ok, Except.ok.injEq, decide_eq_true_eq]
  constructor
  · rintro ⟨_, ⟨h1, rfl⟩, -, h2, _, ⟨h3, rfl⟩, f, h4, c, h5, _, ⟨h6, rfl⟩, r, ⟨h7, rfl⟩, -, h8, rfl⟩
    refine ⟨f, c, h1, h2, h3, h4, h5, ?_, h8, rfl⟩
    simp only [State.streamAdmitted, Bool.or_eq_true, decide_eq_true_eq] at h7 ⊢
    omega
  · rintro ⟨f, c, h1, h2, h3, h4, h5, h6, h8, rfl⟩
    simp only [State.streamAdmitted, Bool.or_eq_true, decide_eq_true_eq] at h6
    refine ⟨_, ⟨h1, rfl⟩, (), h2, _, ⟨h3, rfl⟩, f, h4, c, h5, _, ⟨?_, rfl⟩, _, ⟨?_, rfl⟩, (), h8, rfl⟩ <;>
      simp only [State.streamAdmitted, Bool.or_eq_true, decide_eq_true_eq] <;> omega

theorem geom_eq_ok {s t : State} :
    geom s = .ok t ↔ ∃ f, s.format = .plane f ∧
      t = complete (s.setTrueWidth (f.correctWidth s.storedWidth)) := by
  simp only [geom, bind_eq_ok, planeFormatOf_eq_ok, pure_eq_ok, Except.ok.injEq, @eq_comm _ _ t]

theorem unpack_eq_ok {s t : State} :
    unpack s = .ok t ↔ ∃ f, s.format = .plane f ∧
      (∀ g, f = .indexed g → s.wholePages g = true ∧ s.page.toNat < s.pageCount g) ∧
      s.widthOk f = true ∧ s.streamAdmitted s.pixoff.toNat (s.planeSize f) = true ∧
      s.imgAdmitted s.imgbase.toNat s.pixelCount = true ∧
      t = complete ((s.writeImg s.imgbase.toNat (s.planeImage f)).setImageSize
        s.planeWidth s.planeHeight) := by
  simp only [unpack, bind_eq_ok, planeFormatOf_eq_ok, checkPlanePage_eq_ok, require_eq_ok,
    pure_eq_ok, Except.ok.injEq, exists_and_left, exists_const, @eq_comm _ _ t]

theorem pack_eq_ok {s t : State} :
    pack s = .ok t ↔ ∃ f : EncodeFormat, s.format = .plane f.plane ∧
      (∀ g, f.plane = .indexed g → s.wholePages g = true ∧ s.page.toNat < s.pageCount g) ∧
      s.widthOk f.plane = true ∧ (s.imgw.toNat = s.planeWidth ∧ s.imgh.toNat = s.planeHeight) ∧
      s.imgAdmitted s.imgbase.toNat s.pixelCount = true ∧
      s.bufAdmitted s.dst.toNat (s.planeSize f.plane) = true ∧
      t = complete ((s.writeBuf s.dst.toNat (s.clearCache.encodeImage f).1).clearCache) := by
  have e : ∀ f : EncodeFormat,
      complete (((s.clearCache.encodeImage f).2.writeBuf s.dst.toNat
        (s.clearCache.encodeImage f).1).clearCache) =
      complete ((s.writeBuf s.dst.toNat (s.clearCache.encodeImage f).1).clearCache) := by
    intro f
    rw [clearCache_writeBuf, encodeImage_frame, clearCache_writeBuf]
    rfl
  simp only [pack, bind_eq_ok, encodeFormatOf_eq_ok, checkPlanePage_eq_ok, require_eq_ok,
    pure_eq_ok, Except.ok.injEq, exists_and_left, exists_const, Bool.and_eq_true,
    decide_eq_true_eq, e, @eq_comm _ _ t]

theorem qmatch_eq_ok {s t : State} :
    qmatch s = .ok t ↔ ∃ f, s.checkPage = .ok f ∧
      t = ((quantize f s.page.toNat s (RGBA.ofWord s.opa)).after.setRes
            ((quantize f s.page.toNat s (RGBA.ofWord s.opa)).index.setWidth 32)).setStatus
          (statusCompleted (quantize f s.page.toNat s (RGBA.ofWord s.opa)).hit) := by
  simp only [qmatch, bind_eq_ok, pure_eq_ok, Except.ok.injEq, @eq_comm _ _ t]

/-- The bytes an encoding gives are as many as the plane has (42_pixel_plane R194). -/
theorem encodeImage_length {s : State} {f : EncodeFormat} :
    (s.encodeImage f).1.length = s.planeSize f.plane := by
  cases f with
  | direct15 =>
    simp [State.encodeImage, State.planeSize, EncodeFormat.plane, PlaneFormat.planeBytes,
      State.pixelCount]
    omega
  | indexed g =>
    cases g <;>
      simp [State.encodeImage, State.planeSize, EncodeFormat.plane, PlaneFormat.planeBytes,
        State.pixelCount, indexBytes, packNibbles_length]

/-- The true width of any plane fits the 18 bits of `TRUEW` (44_structure_and_control R256). -/
theorem correctWidth_lt (f : PlaneFormat) {sw : Nat} (h : sw < 2 ^ 16) :
    f.correctWidth sw < 2 ^ 18 := by
  rcases f with ⟨_ | _⟩ | _ | _ <;> simp only [PlaneFormat.correctWidth] <;> omega

/-! ## Every command -/

/-- Everything a command can do: take one of ten faults with no other effect, or perform its writes. -/
theorem exec_cases {i : Instr} {s t : State} (h : exec i s = .next t) :
    (∃ e, e ≠ ErrorKind.illegalCommand ∧ t = takeFault e s) ∨
      (i = .nop ∧ t = complete s) ∨
      (i ∈ [Instr.dec16, .enc16, .split, .pagerd] ∧ ∃ v, t = complete (s.setRes v)) ∨
      (i = .clutld ∧ clutld s = .ok t) ∨
      (i = .clutst ∧ clutst s = .ok t) ∨
      (i = .parse ∧ parse s = .ok t) ∨
      (i = .geom ∧ geom s = .ok t) ∨
      (i = .unpack ∧ unpack s = .ok t) ∨
      (i = .pack ∧ pack s = .ok t) ∨
      (i = .qclr ∧ t = complete s.clearCache) ∨
      (i = .qmatch ∧ qmatch s = .ok t) := by
  have fault : ∀ {r : Except ErrorKind State}, RaisesCommandFaults r → conclude s r = .next t →
      (∃ e, e ≠ ErrorKind.illegalCommand ∧ t = takeFault e s) ∨ r = .ok t := by
    intro r hr hc
    rcases conclude_eq_next.1 hc with h | ⟨e, he, ht⟩
    · exact .inr h
    · exact .inl ⟨e, hr e he, ht⟩
  cases i with
  | nop => exact (fault (raises_ok _) h).imp id fun h => .inl ⟨rfl, by injection h with h; exact h.symm⟩
  | dec16 =>
    refine (fault (raises_ok _) h).imp id fun h => .inr (.inl ⟨by simp, ?_⟩)
    injection h with h
    exact ⟨_, h.symm⟩
  | enc16 =>
    refine (fault (raises_ok _) h).imp id fun h => .inr (.inl ⟨by simp, ?_⟩)
    injection h with h
    exact ⟨_, h.symm⟩
  | split =>
    refine (fault (raises_split s) h).imp id fun h => .inr (.inl ⟨by simp, ?_⟩)
    obtain ⟨f, -, ht⟩ := split_eq_ok.1 h
    exact ⟨_, ht⟩
  | pagerd =>
    refine (fault (raises_pagerd s) h).imp id fun h => .inr (.inl ⟨by simp, ?_⟩)
    obtain ⟨f, -, -, ht⟩ := pagerd_eq_ok.1 h
    exact ⟨_, ht⟩
  | clutld => exact (fault (raises_clutld s) h).imp id fun h => by simp [h]
  | clutst => exact (fault (raises_clutst s) h).imp id fun h => by simp [h]
  | parse => exact (fault (raises_parse s) h).imp id fun h => by simp [h]
  | geom => exact (fault (raises_geom s) h).imp id fun h => by simp [h]
  | unpack => exact (fault (raises_unpack s) h).imp id fun h => by simp [h]
  | pack => exact (fault (raises_pack s) h).imp id fun h => by simp [h]
  | qclr =>
    refine (fault (raises_ok _) h).imp id fun h => ?_
    injection h with h
    simp [h]
  | qmatch => exact (fault (raises_qmatch s) h).imp id fun h => by simp [h]

/-- Everything a step can do: nothing, where no host action is pending, or, on the state with the oldest
action taken off, a command run, an illegal word faulted, a register stored, a reply given, a memory
written, or the reset event. -/
theorem step_cases {s t : State} (h : step s = .next t) :
    (s.pending = [] ∧ t = s) ∨ ∃ u, (∃ rest, u = s.withPending rest) ∧
      ((∃ w i, exec i (u.storeReg .cmd w) = .next t) ∨
        (∃ w, t = takeFault .illegalCommand (u.storeReg .cmd w)) ∨
        (∃ r v, r ≠ RegName.cmd ∧ t = u.storeReg r v) ∨ t = u ∨ (∃ r, t = u.addReply r) ∨
        (∃ x bs, u.bufAdmitted x bs.length = true ∧ t = u.writeBuf x bs) ∨
        (∃ i ps, u.imgAdmitted i ps.length = true ∧ t = u.writeImg i ps) ∨ t = resetEvent u) := by
  unfold step advance at h
  split at h
  · rename_i hp
    injection h with h
    exact .inl ⟨hp, h.symm⟩
  · rename_i a rest hp
    refine .inr ⟨_, ⟨rest, rfl⟩, ?_⟩
    rcases hostAct_cases h with ⟨w, h⟩ | h
    · unfold issue at h
      split at h
      · exact .inl ⟨w, _, h⟩
      · injection h with h
        exact .inr (.inl ⟨w, h.symm⟩)
    · exact .inr (.inr h)

end Sys2Proof.Machine
end

