-- ==== Sys2Proof/Laws/PerInstr.lean ====
section
/-!
SUPPORT. Statements about every command as syntax, one lemma per command.
-/

namespace Sys2Proof.Laws.WordFormat

/-- The word of a command has the two fields of format `C`: `OPC`, its opcode, and `ZERO`, all zeros
(30_encoding R100). -/
def Statement (i : Instr) : Prop :=
  (encode i).extractLsb' 0 8 = opcodeOf i ∧ (encode i).extractLsb' 8 24 = 0

theorem nop : Statement .nop := ⟨by decide, by decide⟩

theorem dec16 : Statement .dec16 := ⟨by decide, by decide⟩

theorem enc16 : Statement .enc16 := ⟨by decide, by decide⟩

theorem clutld : Statement .clutld := ⟨by decide, by decide⟩

theorem split : Statement .split := ⟨by decide, by decide⟩

theorem pagerd : Statement .pagerd := ⟨by decide, by decide⟩

theorem clutst : Statement .clutst := ⟨by decide, by decide⟩

theorem parse : Statement .parse := ⟨by decide, by decide⟩

theorem geom : Statement .geom := ⟨by decide, by decide⟩

theorem unpack : Statement .unpack := ⟨by decide, by decide⟩

theorem pack : Statement .pack := ⟨by decide, by decide⟩

theorem qclr : Statement .qclr := ⟨by decide, by decide⟩

theorem qmatch : Statement .qmatch := ⟨by decide, by decide⟩

end Sys2Proof.Laws.WordFormat
end

