-- ==== Sys2Proof/Laws/Tables.lean ====
section
/-!
SUPPORT. The rules' tables in numbers (Safety.lean) against the model's formats and checks: which format a
code is, and which fault a command's checks raise.
-/

namespace Sys2Proof.Machine

open Sys2Proof.Safety

/-! ## Formats by their codes -/

theorem format_eq (s : State) :
    s.format =
      if formatNumber s = 0 then .plane (.indexed .indexed4)
      else if formatNumber s = 1 then .plane (.indexed .indexed8)
      else if formatNumber s = 2 then .plane .direct15
      else if formatNumber s = 3 then .plane .direct24
      else if formatNumber s = 4 then .mixed
      else .invalid := by
  unfold State.format Format.ofCode formatNumber
  generalize s.formatCode = c
  revert c
  decide

theorem ofCode_ofNat (n : Nat) :
    Format.ofCode (BitVec.ofNat 3 n) =
      if n % 8 = 0 then .plane (.indexed .indexed4)
      else if n % 8 = 1 then .plane (.indexed .indexed8)
      else if n % 8 = 2 then .plane .direct15
      else if n % 8 = 3 then .plane .direct24
      else if n % 8 = 4 then .mixed
      else .invalid := by
  have h : ∀ c : BitVec 3, Format.ofCode c =
      if c.toNat = 0 then .plane (.indexed .indexed4)
      else if c.toNat = 1 then .plane (.indexed .indexed8)
      else if c.toNat = 2 then .plane .direct15
      else if c.toNat = 3 then .plane .direct24
      else if c.toNat = 4 then .mixed
      else .invalid := by decide
  simpa using h (BitVec.ofNat 3 n)

/-- The code of a plane format (30_encoding R106). -/
def planeNumber : PlaneFormat → Nat
  | .indexed .indexed4 => 0
  | .indexed .indexed8 => 1
  | .direct15 => 2
  | .direct24 => 3

theorem format_eq_plane {s : State} {f : PlaneFormat} :
    s.format = .plane f ↔ formatNumber s = planeNumber f := by
  rw [format_eq]
  rcases f with ⟨_ | _⟩ | _ | _ <;> simp only [planeNumber] <;> split_ifs <;> simp <;> omega

theorem format_eq_mixed {s : State} : s.format = .mixed ↔ formatNumber s = 4 := by
  rw [format_eq]
  split_ifs <;> simp <;> omega

theorem format_eq_invalid {s : State} : s.format = .invalid ↔ 5 ≤ formatNumber s := by
  rw [format_eq]
  split_ifs <;> simp <;> omega

theorem pageSizeNumber_plane (f : IndexedFormat) :
    pageSizeNumber (planeNumber (.indexed f)) = f.pageSize := by
  cases f <;> rfl

theorem widthNumber_plane (f : PlaneFormat) (sw : Nat) :
    widthNumber (planeNumber f) sw = f.correctWidth sw := by
  rcases f with ⟨_ | _⟩ | _ | _ <;> rfl

theorem sizeNumber_plane (f : PlaneFormat) (w h : Nat) :
    sizeNumber (planeNumber f) w h = f.planeBytes w h := by
  rcases f with ⟨_ | _⟩ | _ | _ <;> rfl

/-! ## Which fault the checks raise -/

/-- The code of the fault a computation raises, `none` where it raises none. -/
def faultCode {α : Type} : Except ErrorKind α → Option Nat
  | .ok _ => none
  | .error e => some e.code

@[simp] theorem faultCode_ok {α : Type} (a : α) : faultCode (.ok a : Except ErrorKind α) = none := rfl

@[simp] theorem faultCode_error {α : Type} (e : ErrorKind) :
    faultCode (.error e : Except ErrorKind α) = some e.code := rfl

/-- A check in front decides the code where it fails. -/
theorem faultCode_require {α : Type} {c : Bool} {e : ErrorKind} {k : Unit → Except ErrorKind α} :
    faultCode (require c e >>= k) = if c = true then faultCode (k ()) else some e.code := by
  cases c <;> rfl

theorem faultCode_streamRead {α : Type} {s : State} {p n : Nat} {k : Nat → Except ErrorKind α} :
    faultCode (s.streamRead p n >>= k) =
      if s.streamAdmitted p n = true then faultCode (k (s.bufRead p n)) else some 5 := by
  unfold State.streamRead
  cases s.streamAdmitted p n <;> rfl

theorem faultCode_eq_none {α : Type} {r : Except ErrorKind α} :
    faultCode r = none ↔ ∃ a, r = .ok a := by
  cases r <;> simp

/-- A fault taken is the old state with the code in `STATUS`. -/
theorem takeFault_eq (e : ErrorKind) (s : State) :
    takeFault e s = { s with status := BitVec.ofNat 32 e.code } := rfl

/-- How a computation that raises a fault ends, by the code of the fault. -/
theorem conclude_of_faultCode {s : State} {r : Except ErrorKind State} {c : Nat}
    (h : faultCode r = some c) : conclude s r = .next { s with status := BitVec.ofNat 32 c } := by
  cases r with
  | ok t => simp at h
  | error e =>
    injection h with h
    rw [← h]
    rfl

theorem wholePages_iff {s : State} {f : IndexedFormat} :
    s.wholePages f = true ↔ s.clen.toNat % f.pageSize = 0 := by
  simp [State.wholePages]

theorem page_exists_iff {s : State} {f : IndexedFormat} :
    decide (s.page.toNat < s.pageCount f) = true ↔ ¬s.clen.toNat / f.pageSize ≤ s.page.toNat := by
  rw [decide_eq_true_eq, State.pageCount]
  omega

theorem pagesFault_eq (s : State) : pagesFault s = faultCode s.checkPages := by
  unfold State.checkPages pagesFault
  cases hf : s.format with
  | mixed =>
    rw [format_eq_mixed.1 hf]
    rfl
  | invalid =>
    have := format_eq_invalid.1 hf
    simp [this, pageFormatOf, ErrorKind.code]
  | plane p =>
    rw [format_eq_plane.1 hf]
    rcases p with ⟨_ | _⟩ | _ | _ <;>
      simp [planeNumber, pageFormatOf, pageSizeNumber, wholePages_iff, IndexedFormat.pageSize,
        ErrorKind.code, faultCode_require]

theorem pageFault_eq (s : State) : pageFault s = faultCode s.checkPage := by
  unfold pageFault State.checkPage
  rw [pagesFault_eq]
  cases h : s.checkPages with
  | error e => simp
  | ok f =>
    have hf := format_eq_plane.1 (checkPages_eq_ok.1 h).1
    rw [hf, pageSizeNumber_plane]
    simp only [faultCode_ok, ok_bind, faultCode_require, page_exists_iff, pure_eq_ok,
      ErrorKind.code]
    split_ifs <;> rfl

theorem streamAdmitted_iff {s : State} {a n : Nat} :
    s.streamAdmitted a n = true ↔ ¬(0 < n ∧ min s.slen.toNat s.params.bufSize < a + n) := by
  simp only [State.streamAdmitted, Bool.or_eq_true, decide_eq_true_eq]
  rw [State.streamLimit]
  omega

theorem bufAdmitted_iff {s : State} {a n : Nat} :
    s.bufAdmitted a n = true ↔ ¬(0 < n ∧ s.params.bufSize < a + n) := by
  simp only [State.bufAdmitted, Bool.or_eq_true, decide_eq_true_eq]
  omega

theorem imgAdmitted_iff {s : State} {i n : Nat} :
    s.imgAdmitted i n = true ↔ ¬(0 < n ∧ s.params.imgSize < i + n) := by
  simp only [State.imgAdmitted, Bool.or_eq_true, decide_eq_true_eq]
  omega

theorem widthOk_iff {s : State} {f : PlaneFormat} :
    s.widthOk f = true ↔ ¬(planeNumber f = 0 ∧ s.planeWidth % 2 = 1) := by
  rcases f with ⟨_ | _⟩ | _ | _ <;> simp [State.widthOk, planeNumber]

theorem faultCode_checkPlanePage {α : Type} {s : State} {f : PlaneFormat}
    {k : Unit → Except ErrorKind α} :
    faultCode (s.checkPlanePage f >>= k) =
      if planeNumber f ≤ 1 ∧ s.clen.toNat % pageSizeNumber (planeNumber f) ≠ 0 then some 3
      else if planeNumber f ≤ 1 ∧ s.clen.toNat / pageSizeNumber (planeNumber f) ≤ s.page.toNat then
        some 7
      else faultCode (k ()) := by
  cases f with
  | direct15 => rfl
  | direct24 => rfl
  | indexed g =>
    have h1 : planeNumber (.indexed g) ≤ 1 := by cases g <;> decide
    simp only [State.checkPlanePage, bind_assoc, faultCode_require, wholePages_iff, page_exists_iff,
      pageSizeNumber_plane, h1, true_and, ErrorKind.code]
    generalize faultCode (k ()) = r
    split_ifs <;> first | rfl | omega

theorem unpackFault_eq (s : State) : unpackFault s = faultCode (unpack s) := by
  unfold unpack unpackFault
  cases hf : s.format with
  | mixed =>
    rw [format_eq_mixed.1 hf]
    rfl
  | invalid =>
    have := format_eq_invalid.1 hf
    simp [this, planeFormatOf, ErrorKind.code]
  | plane p =>
    have h5 : planeNumber p < 4 := by rcases p with ⟨_ | _⟩ | _ | _ <;> decide
    rw [format_eq_plane.1 hf]
    simp only [planeFormatOf, ok_bind, faultCode_checkPlanePage, faultCode_require,
      streamAdmitted_iff, imgAdmitted_iff, widthOk_iff, State.planeSize, sizeNumber_plane,
      State.pixelCount, pure_eq_ok, faultCode_ok, ErrorKind.code]
    split_ifs <;> first | rfl | omega

theorem packFault_eq (s : State) : packFault s = faultCode (pack s) := by
  unfold pack packFault
  cases hf : s.format with
  | mixed =>
    rw [format_eq_mixed.1 hf]
    rfl
  | invalid =>
    have := format_eq_invalid.1 hf
    simp [this, encodeFormatOf, ErrorKind.code]
  | plane p =>
    rw [format_eq_plane.1 hf]
    obtain ⟨f, rfl⟩ | rfl : (∃ f : EncodeFormat, p = f.plane) ∨ p = .direct24 := by
      rcases p with g | _ | _
      · exact .inl ⟨.indexed g, rfl⟩
      · exact .inl ⟨.direct15, rfl⟩
      · exact .inr rfl
    · have h2 : planeNumber f.plane ≤ 2 := by rcases f with ⟨_ | _⟩ | _ <;> decide
      rw [encodeFormatOf_eq_ok.2 rfl]
      simp only [ok_bind, faultCode_checkPlanePage, faultCode_require, bufAdmitted_iff,
        imgAdmitted_iff, widthOk_iff, State.planeSize, sizeNumber_plane, State.pixelCount,
        pure_eq_ok, faultCode_ok, ErrorKind.code, Bool.and_eq_true, decide_eq_true_eq]
      split_ifs <;> first | rfl | omega
    · rfl

theorem faultCode_streamRect {α : Type} {s : State} {p : Nat} {k : Rect → Except ErrorKind α} :
    faultCode (s.streamRect p >>= k) =
      if s.streamAdmitted p 8 = true then
        faultCode (k { x := s.bufRead p 2, y := s.bufRead (p + 2) 2, w := s.bufRead (p + 4) 2,
                       h := s.bufRead (p + 6) 2 })
      else some 5 := by
  simp only [State.streamRect, bind_assoc, faultCode_streamRead, pure_bind, streamAdmitted_iff]
  split_ifs <;> first | rfl | omega

theorem faultCode_planeFormatOf {α : Type} {c : Format} {k : PlaneFormat → Except ErrorKind α}
    {r : Option Nat} :
    (∀ f, c = .plane f → r = faultCode (k f)) →
      (if c = .invalid then some 2 else if c = .mixed then some 4 else r) =
        faultCode (planeFormatOf c >>= k) := by
  intro h
  cases c with
  | plane f => simpa [planeFormatOf] using h f rfl
  | mixed => rfl
  | invalid => rfl

/-- The structure at `SPOS` as `PARSE` walks it, once its format is known (44_structure_and_control R252
steps 3 to 6). -/
theorem faultCode_clutBlock {α : Type} {s : State} {f : PlaneFormat} {p : Nat} {b : Bool}
    {k : ClutBlock → Except ErrorKind α} {n : Nat} (hn : n = (s.bufRead p 4 - 12) / 2) :
    faultCode (s.clutBlock b f p >>= k) =
      if b = true ∧ ¬s.streamAdmitted p 12 = true then some 5
      else if b = true ∧ s.bufRead p 4 < 12 then some 3
      else if b = true ∧ s.params.clutMax < n then some 9
      else if b = true ∧ ¬s.streamAdmitted (p + 12) (2 * n) = true then some 5
      else if b = true ∧ planeNumber f ≤ 1 ∧ n % pageSizeNumber (planeNumber f) ≠ 0 then some 3
      else if b = true then
        faultCode (k
          { size := s.bufRead p 4
            rect := { x := s.bufRead (p + 4) 2, y := s.bufRead (p + 6) 2,
                      w := s.bufRead (p + 8) 2, h := s.bufRead (p + 10) 2 }
            paloff := p + 12
            entries := s.bufEntries (p + 12) n
            resume := p + 12 + 2 * n })
      else faultCode (k (noClut p)) := by
  cases b with
  | false => simp [State.clutBlock]
  | true =>
    have hc : PlaneFormat.clutCountOk f n = true ↔
        ¬(planeNumber f ≤ 1 ∧ n % pageSizeNumber (planeNumber f) ≠ 0) := by
      cases f with
      | indexed g =>
        have h1 : planeNumber (.indexed g) ≤ 1 := by cases g <;> decide
        rw [PlaneFormat.clutCountOk, decide_eq_true_eq, pageSizeNumber_plane]
        simp [h1]
      | direct15 => simp [PlaneFormat.clutCountOk, planeNumber]
      | direct24 => simp [PlaneFormat.clutCountOk, planeNumber]
    subst hn
    simp only [State.clutBlock, if_true, State.walkClut, bind_assoc, faultCode_streamRead,
      faultCode_streamRect, faultCode_require, pure_bind, decide_eq_true_eq, true_and, hc,
      ErrorKind.code, streamAdmitted_iff]
    split_ifs <;> first | rfl | omega

theorem ofCode_invalid_iff {n : Nat} : Format.ofCode (BitVec.ofNat 3 n) = .invalid ↔ 4 < n % 8 := by
  rw [ofCode_ofNat]
  split_ifs <;> simp <;> omega

theorem ofCode_mixed_iff {n : Nat} : Format.ofCode (BitVec.ofNat 3 n) = .mixed ↔ n % 8 = 4 := by
  rw [ofCode_ofNat]
  split_ifs <;> simp <;> omega

theorem ofCode_plane_iff {n : Nat} {f : PlaneFormat} :
    Format.ofCode (BitVec.ofNat 3 n) = .plane f ↔ n % 8 = planeNumber f := by
  rw [ofCode_ofNat]
  rcases f with ⟨_ | _⟩ | _ | _ <;> simp only [planeNumber] <;> split_ifs <;> simp <;> omega

/-- The checks of the walk's last part: the pixel block at `q`, the plane of `t` bytes behind it
(44_structure_and_control R253, checks 11 and 12). -/
def pixelBlockFault (s : State) (q t : Nat) : Option Nat :=
  if min s.slen.toNat s.params.bufSize < q + 12 then some 5
  else if 0 < t ∧ min s.slen.toNat s.params.bufSize < q + 12 + t then some 5
  else none

/-- The checks behind the format (44_structure_and_control R253, checks 6 to 12). -/
def structureFault (s : State) : Option Nat :=
  let lim := min s.slen.toNat s.params.bufSize
  let f := headerMode s % 8
  if headerHasClut s ∧ lim < s.spos.toNat + 20 then some 5
  else if headerHasClut s ∧ headerClutSize s < 12 then some 3
  else if headerHasClut s ∧ s.params.clutMax < headerEntries s then some 9
  else if headerHasClut s ∧ 0 < headerEntries s ∧
    lim < s.spos.toNat + 20 + 2 * headerEntries s then some 5
  else if headerHasClut s ∧ f ≤ 1 ∧ headerEntries s % pageSizeNumber f ≠ 0 then some 3
  else pixelBlockFault s (headerPixelBlock s) (headerPlaneSize s)

theorem faultCode_pixelBlock {s : State} {f : PlaneFormat} {q t : Nat} {u : Nat → Rect → State}
    (ht : t = f.planeBytes (f.correctWidth (s.bufRead (q + 8) 2)) (s.bufRead (q + 10) 2)) :
    faultCode (s.streamRead q 4 >>= fun psize => s.streamRect (q + 4) >>= fun rect =>
      require (s.streamAdmitted (q + 12) (f.planeBytes (f.correctWidth rect.w) rect.h))
        .truncatedInput >>= fun _ => .ok (u psize rect)) = pixelBlockFault s q t := by
  subst ht
  simp only [faultCode_streamRead, faultCode_streamRect, faultCode_require, streamAdmitted_iff,
    faultCode_ok, ErrorKind.code, pixelBlockFault, Nat.add_assoc, Nat.reduceAdd]
  split_ifs <;> first | rfl | omega

/-- `structureFault` is what the walk raises once the format is known. -/
theorem structureFault_eq {s : State} {f : PlaneFormat} (hm : headerMode s % 8 = planeNumber f)
    (u : ClutBlock → Nat → Rect → State) :
    structureFault s =
      faultCode (s.clutBlock (headerHasClut s) f (s.spos.toNat + 8) >>= fun c =>
        s.streamRead c.resume 4 >>= fun psize => s.streamRect (c.resume + 4) >>= fun rect =>
          require (s.streamAdmitted (c.resume + 12) (f.planeBytes (f.correctWidth rect.w) rect.h))
            .truncatedInput >>= fun _ => .ok (u c psize rect)) := by
  rw [faultCode_clutBlock rfl]
  have hT : headerPlaneSize s = f.planeBytes
      (f.correctWidth (s.bufRead (headerPixelBlock s + 8) 2)) (s.bufRead (headerPixelBlock s + 10) 2) := by
    rw [headerPlaneSize, headerWidth, hm, sizeNumber_plane, widthNumber_plane]
  unfold structureFault
  cases hb : headerHasClut s with
  | true =>
    have hn : (s.bufRead (s.spos.toNat + 8) 4 - 12) / 2 = headerEntries s := by
      simp [headerEntries, hb, headerClutSize]
    have hq : s.spos.toNat + 8 + 12 + 2 * headerEntries s = headerPixelBlock s := by
      simp [headerPixelBlock, hb]
    simp only [hn, hq, hm, faultCode_pixelBlock (f := f) hT, streamAdmitted_iff, true_and, if_true]
    change _ = if _ then _ else if headerClutSize s < 12 then _ else _
    generalize pixelBlockFault s (headerPixelBlock s) (headerPlaneSize s) = r
    split_ifs <;> first | rfl | omega
  | false =>
    have hq : s.spos.toNat + 8 = headerPixelBlock s := by simp [headerPixelBlock, hb]
    simp only [noClut, hq, faultCode_pixelBlock (f := f) hT, Bool.false_eq_true, false_and, if_false]

theorem parseFault_eq (s : State) : parseFault s = faultCode (parse s) := by
  have h : faultCode (parse s) =
      if min s.slen.toNat s.params.bufSize < s.spos.toNat + 4 then some 5
      else if s.bufRead s.spos.toNat 4 ≠ 0x10 then some 1
      else if min s.slen.toNat s.params.bufSize < s.spos.toNat + 8 then some 5
      else if 4 < headerMode s % 8 then some 2
      else if headerMode s % 8 = 4 then some 4
      else structureFault s := by
    unfold parse
    simp only [faultCode_streamRead, faultCode_require, decide_eq_true_eq, pure_eq_ok]
    rw [← faultCode_planeFormatOf (r := structureFault s)]
    · simp only [streamAdmitted_iff, ofCode_invalid_iff, ofCode_mixed_iff, ErrorKind.code,
        structureMagic]
      change _ = if _ then _ else if _ then _ else if _ then _ else
        if 4 < s.bufRead (s.spos.toNat + 4) 4 % 8 then _ else
          if s.bufRead (s.spos.toNat + 4) 4 % 8 = 4 then _ else _
      generalize structureFault s = r
      split_ifs <;> first | rfl | omega
    · intro f hf
      exact structureFault_eq (ofCode_plane_iff.1 hf) _
  rw [h]
  rfl

end Sys2Proof.Machine
end

