-- ==== Sys2Proof/Tests/Slice0.lean ====
section
/-!
SUPPORT. Named tests. Expected values come from 30_encoding R102 and 95_test_vectors (the vector is named
at each test). The `witness_` theorems show, for each statement of the obligations file that has
hypotheses or clauses, states and operands that meet them.
-/

namespace Sys2Proof.Tests

open Sys2Proof.Machine Sys2Proof.Safety

/-! ## Decoding: words written out from the opcode map (30_encoding R100, R102) -/

theorem test_decode_nop : decode 0b00000000_00000000_00000000_00000000 = .ok .nop := by decide
theorem test_decode_dec16 : decode 0b00000000_00000000_00000000_00000001 = .ok .dec16 := by decide
theorem test_decode_enc16 : decode 0b00000000_00000000_00000000_00000010 = .ok .enc16 := by decide
theorem test_decode_clutld : decode 0b00000000_00000000_00000000_00010000 = .ok .clutld := by decide
theorem test_decode_split : decode 0b00000000_00000000_00000000_00010001 = .ok .split := by decide
theorem test_decode_pagerd : decode 0b00000000_00000000_00000000_00010010 = .ok .pagerd := by decide
theorem test_decode_clutst : decode 0b00000000_00000000_00000000_00010011 = .ok .clutst := by decide
theorem test_decode_parse : decode 0b00000000_00000000_00000000_00100000 = .ok .parse := by decide
theorem test_decode_geom : decode 0b00000000_00000000_00000000_00100001 = .ok .geom := by decide
theorem test_decode_unpack : decode 0b00000000_00000000_00000000_00110000 = .ok .unpack := by decide
theorem test_decode_pack : decode 0b00000000_00000000_00000000_00110001 = .ok .pack := by decide
theorem test_decode_qclr : decode 0b00000000_00000000_00000000_01000000 = .ok .qclr := by decide
theorem test_decode_qmatch : decode 0b00000000_00000000_00000000_01000001 = .ok .qmatch := by decide

/-- 95_test_vectors V6.1. -/
theorem test_decode_refuses_by_name :
    decode 0x00000003 = .error .opcode ∧ decode 0x000000FF = .error .opcode ∧
      decode 0x00000014 = .error .opcode ∧ decode 0x00000032 = .error .opcode ∧
      decode 0x00000100 = .error .zeroField ∧ decode 0x80000001 = .error .zeroField := by decide

theorem test_decodeTableWord :
    decodeTableWord 32 0x31 = some .pack ∧ decodeTableWord 8 0x41 = some .qmatch ∧
      decodeTableWord 32 0x131 = none := by decide

/-! ## WellFormed smoke: an ill-formed term for each check -/

theorem test_wf_zero_field : CommandWord.zeroFieldOk 0x00000100 = false := by decide
theorem test_wf_opcode : CommandWord.opcodeOk 0x00000003 = false := by decide
theorem test_wf_word :
    CommandWord.wellFormed 0x80000001 = false ∧ CommandWord.wellFormed 0x42 = false := by decide
theorem test_wf_offset_aligned :
    (HostAction.writeReg 0x02 0).wellFormed Config.defaultParams = false ∧
      (HostAction.readReg 0x05).wellFormed Config.defaultParams = false := by decide
theorem test_wf_offset_range :
    (HostAction.writeReg 0x100 0).wellFormed Config.defaultParams = false ∧
      (HostAction.readReg 0x100).wellFormed Config.defaultParams = false := by decide
theorem test_wf_buf_range :
    (HostAction.writeBuf 0xFFF [1, 2]).wellFormed Config.defaultParams = false ∧
      (HostAction.readBuf 0x1000 1).wellFormed Config.defaultParams = false := by decide
theorem test_wf_img_range :
    (HostAction.writeImg 0x100 [0]).wellFormed Config.defaultParams = false ∧
      (HostAction.readImg 0xFF 2).wellFormed Config.defaultParams = false := by decide
theorem test_wf_params :
    ¬Params.wf { bufSize := 2 ^ 32 + 1, imgSize := 0, clutMax := 256 } ∧
      ¬Params.wf { bufSize := 0, imgSize := 2 ^ 32 + 1, clutMax := 256 } ∧
      ¬Params.wf { bufSize := 0, imgSize := 0, clutMax := 255 } ∧
      ¬Params.wf { bufSize := 0, imgSize := 0, clutMax := 0 } ∧
      ¬Params.wf { bufSize := 0, imgSize := 0, clutMax := 2 ^ 31 + 256 } := by decide

/-! ## The states the tests run on -/

/-- A small instance after reset. -/
def blank : State := State.resetWith { bufSize := 64, imgSize := 16, clutMax := 256 }

/-- Sixteen entries with pairwise distinct low 15 bits, entry 0 zero (95_test_vectors 1.5). -/
def ramp : List Color16 :=
  [0x0000, 0x0421, 0x0842, 0x0C63, 0x1084, 0x14A5, 0x18C6, 0x1CE7, 0x2108, 0x2529, 0x294A, 0x2D6B,
    0x318C, 0x35AD, 0x39CE, 0x3DEF]

/-- Page 0 of 95_test_vectors V2.5. -/
def page0 : List Color16 :=
  [0x0000, 0x001F, 0x03E0, 0x7C00, 0x7FFF, 0x8000, 0x8000, 0x8000, 0x8000, 0x8000, 0x8000, 0x8000,
    0x8000, 0x8000, 0x8000, 0x8000]

/-- Page 1 of 95_test_vectors V2.5. -/
def page1 : List Color16 :=
  [0x8000, 0x7C00, 0x03E0, 0x001F, 0x0421, 0x0000, 0x0000, 0x0000, 0x0000, 0x0000, 0x0000, 0x0000,
    0x0000, 0x0000, 0x0000, 0x0000]

/-- An Indexed4 instance with a palette loaded, `TE` set and a plane of `w` by 1 pixels at `BUF[0]`. -/
def indexed4 (entries : List Color16) (w : Nat) (plane : List Byte) : State :=
  { (blank.loadClut entries).writeBuf 0 plane with
    ctrl := 1, pixrectWH := 0x00010000, truew := BitVec.ofNat 32 w
    slen := BitVec.ofNat 32 plane.length, dst := 0x20 }

/-- A direct-format instance with a plane of `w` by 1 pixels at `BUF[0]`. -/
def direct (format : Word) (w : Nat) (plane : List Byte) : State :=
  { indexed4 [] w plane with mode := format }

/-- The state a command gives. -/
def after (i : Instr) (s : State) : State :=
  match exec i s with
  | .next t => t
  | .fault _ => s
  | .refused _ => s

/-- The state the next step gives. -/
def stepped (s : State) : State :=
  match step s with
  | .next t => t
  | .fault _ => s
  | .refused _ => s

/-! ## One step each, on the vectors of the spec -/

/-- V5.4. -/
theorem test_nop_clears_status : (after .nop { blank with status := 0x100, res := 7 }).status = 0 := by
  decide

/-- V1.1. -/
theorem test_dec16_te :
    (after .dec16 blank).res = 0xFF000000 ∧ (after .dec16 { blank with ctrl := 1 }).res = 0 ∧
      (after .dec16 { blank with ctrl := 1, opa := 0x8000 }).res = 0xFF000000 := by decide

/-- V1.1. -/
theorem test_dec16_fields :
    (after .dec16 { blank with opa := 0x1234 }).res = 0xFF2088A0 ∧
      (after .dec16 { blank with opa := 0xABCD }).res = 0xFF50F068 ∧
      (after .dec16 { blank with opa := 0xDEAD7FFF }).res = 0xFFF8F8F8 := by decide

/-- V1.2. -/
theorem test_enc16_alpha :
    (after .enc16 { blank with opa := 0xFFFFFFFF }).res = 0x7FFF ∧
      (after .enc16 { blank with opa := 0xFEFFFFFF }).res = 0xFFFF ∧
      (after .enc16 blank).res = 0x8000 := by decide

/-- V1.2. -/
theorem test_enc16_truncates :
    (after .enc16 { blank with opa := 0x78563412 }).res = 0xA8C2 ∧
      (after .enc16 { blank with opa := 0xFF3264C8 }).res = 0x1999 ∧
      (after .enc16 { blank with opa := 0xFF7C7C7C }).res = 0x3DEF := by decide

/-- V2.1. -/
theorem test_clutld_loads :
    let s := { blank.writeBuf 0x20 [0x00, 0x00, 0x1F, 0x00] with slen := 0x24, paloff := 0x20, clutn := 2 }
    (after .clutld s).clut = [0x0000, 0x001F] ∧ (after .clutld s).clen = 2 ∧
      (after .clutld { s with slen := 0x23 }).status = 5 := by decide

/-- V2.2. -/
theorem test_clutld_corners :
    (after .clutld { blank with clutn := 70000 }).status = 9 ∧
      (after .clutld { blank with paloff := 0xFFFFFFFF }).status = 0 := by decide

/-- V2.3. -/
theorem test_split :
    (after .split { blank with clen := 32 }).res = 2 ∧
      (after .split { blank with clen := 17 }).status = 3 ∧
      (after .split { blank with mode := 1, clen := 768 }).res = 3 ∧
      (after .split { blank with mode := 3 }).status = 4 ∧
      (after .split { blank with mode := 7 }).status = 2 := by decide

/-- Program P2 rows 19 to 21. -/
theorem test_pagerd :
    let s := { indexed4 (page0 ++ page1) 4 [] with page := 1 }
    (after .pagerd { s with opa := 4 }).res = 0xFF080808 ∧
      (after .pagerd { s with opa := 16 }).status = 7 ∧
      (after .pagerd { s with opa := 0x80000001 }).status = 7 ∧
      (after .pagerd { s with page := 2 }).status = 7 := by decide

/-- V2.1 and V2.6. -/
theorem test_clutst :
    let s := { blank.loadClut [0x0000, 0x001F] with dst := 60 }
    (after .clutst s).buf = [(60, 0x00), (61, 0x00), (62, 0x1F), (63, 0x00)] ∧
      (after .clutst { s with dst := 61 }).status = 8 := by decide

/-- Program P1: the structure of its row 4. -/
def p1Structure : List Byte :=
  [0x10, 0, 0, 0, 0x02, 0, 0, 0, 0x14, 0, 0, 0, 0, 0, 0, 0, 2, 0, 2, 0, 0x00, 0x80, 0xFF, 0x7F, 0, 0,
    0x1F, 0]

/-- Program P1 rows 4 and 17. -/
theorem test_parse_direct15 :
    let s := { blank.writeBuf 0 p1Structure with slen := 28 }
    let t := after .parse s
    (t.mode, t.pixsize, t.pixrectWH, t.truew, t.pixoff, t.clen, t.status) =
        (2, 0x14, 0x00020002, 2, 0x14, 0, 0) ∧
      (after .parse { s with slen := 27 }).status = 5 := by decide

/-- V5.3: Direct15 with a CLUT of 15 entries and an odd declared size. -/
def oddClut : State :=
  { (blank.writeBuf 0 ([0x10, 0, 0, 0, 0x0A, 0, 0, 0, 43, 0, 0, 0] ++ List.replicate 50 0)) with
    slen := 62 }

/-- V5.3. -/
theorem test_parse_odd_clut :
    let t := after .parse oddClut
    (t.mode, t.clutsize, t.paloff, t.clutn, t.clen, t.pixoff, t.status) =
      (0xA, 43, 0x14, 15, 15, 0x3E, 0) := by decide

/-- V5.1. -/
theorem test_geom :
    (after .geom { blank with mode := 3, pixrectWH := 0x00040008 }).truew = 5 ∧
      (after .geom { blank with mode := 0, pixrectWH := 0xFFFFFFFF }).truew = 262140 ∧
      (after .geom { blank with mode := 4 }).status = 4 := by decide

/-- V3.4: nibble order. -/
theorem test_unpack_indexed4 :
    (after .unpack (indexed4 page0 4 [0x10, 0x42])).img =
      [(0, 0x00000000), (1, 0xFF0000F8), (2, 0xFF00F800), (3, 0xFFF8F8F8)] := by decide

/-- Program P5 row 6. -/
theorem test_unpack_direct24 :
    (after .unpack (direct 3 2 [1, 2, 3, 4, 5, 6])).img = [(0, 0xFF030201), (1, 0xFF060504)] := by
  decide

/-- V3.2. -/
theorem test_pack_direct15 :
    let s := { (blank.writeImg 0 [0xFF0000F8, 0x00000000]).setImageSize 2 1 with
      mode := 2, truew := 2, pixrectWH := 0x00010000, dst := 0x3C }
    (after .pack s).buf = [(0x3C, 0x1F), (0x3D, 0x00), (0x3E, 0x00), (0x3F, 0x80)] ∧
      (after .pack { s with imgh := 2 }).status = 6 ∧ (after .pack { s with dst := 0x3D }).status = 8 ∧
      (after .pack { s with imgbase := 15 }).status = 5 := by decide

/-- Program P2 row 30: two pixels share a key, ties go to the lowest index. -/
theorem test_pack_indexed4 :
    let s := (indexed4 page0 4 []).writeImg 0 [0xFF000000, 0xFFF80000, 0xFF00F800, 0xFF080808]
    (after .pack (s.setImageSize 4 1)).buf = [(0x20, 0x30), (0x21, 0x02)] := by decide +kernel

/-- V4.1: an Indexed4 page, one key cached. -/
def session : State := (after .qmatch { indexed4 page0 4 [] with opa := 0xFF0000FF })

/-- Program P4 row 9. -/
theorem test_qclr : (after .qclr session).cache = [] ∧ (after .qclr session).qcnt = 0 := by decide

/-- V4.1. -/
theorem test_qmatch_miss_then_hit :
    (session.res, session.status, session.qcnt) = (1, 0x000, 1) ∧
      ((after .qmatch session).res, (after .qmatch session).status, (after .qmatch session).qcnt) =
        (1, 0x100, 1) := by decide +kernel

/-- Program P4 rows 18 and 19 (V4.5): ties, and the first transparent entry. -/
theorem test_qmatch_ties_and_transparent :
    let s := indexed4 ([0x7FFF, 0x0001, 0x8000, 0x0000] ++ List.replicate 12 0x7FFF) 4 []
    (after .qmatch { s with opa := 0xFF000000 }).res = 2 ∧
      (after .qmatch { s with opa := 0x00000000 }).res = 3 := by decide +kernel

/-! ## The host port -/

/-- V6.2. -/
theorem test_write_masks :
    (stepped { blank with pending := [.writeReg 0x08 0xFFFFFFFF] }).ctrl = 0x1 ∧
      (stepped { blank with pending := [.writeReg 0x0C 0xFFFFFFFF] }).mode = 0xF ∧
      (stepped { blank with pending := [.writeReg 0x50 0xFFFFFFFF] }).truew = 0x3FFFF ∧
      (stepped { blank with pending := [.writeReg 0x28 0xFFFFFFFF] }).clen = 0 := by decide

/-- V2.5, and V5.1's last row. -/
theorem test_views :
    (indexed4 (page0 ++ page1) 4 []).readReg .ptrans = 0x100 ∧
      { indexed4 (page0 ++ page1) 4 [] with page := 1 }.readReg .ptrans = 0x105 ∧
      { indexed4 (page0 ++ page1) 4 [] with page := 2 }.readReg .ptrans = 0 ∧
      { blank with mode := 3, truew := 0x3FFFF, pixrectWH := 0xFFFF0000 }.readReg .truebytesHi = 0xB ∧
      { blank with mode := 3, truew := 0x3FFFF, pixrectWH := 0xFFFF0000 }.readReg .truebytesLo =
        0xFFF10003 := by decide

/-- V6.1: the illegal word stays in `CMD`. -/
theorem test_illegal_command :
    (stepped { blank with pending := [.writeReg 0 0x100] }).status = 11 ∧
      (stepped { blank with pending := [.writeReg 0 0x100] }).cmd = 0x100 := by decide

/-- V6.4: a write of the same value clears the cache. -/
theorem test_page_write_clears :
    (stepped { session with pending := [.writeReg 0x30 session.page] }).qcnt = 0 ∧
      (stepped { session with pending := [.writeReg 0x6C 5] }).qcnt = 1 := by decide

/-- The placed word is the one the next step runs. -/
theorem test_withFetchWord : (stepped (State.reset.withFetchWord 32 0x02)).res = 0x8000 := by decide

/-! ## Witnesses: the hypotheses and the clauses of the statements can be met -/

theorem witness_DecodeInvertsEncode : Instr.wellFormed .pack = true := by decide

theorem witness_DecodeAcceptsExactlyTheEncodings :
    ((0x41 : Word) = encode .qmatch) ∧ ((0x100 : Word).toNat / 256 ≠ 0) ∧
      (∀ i, (0xFF : Word) ≠ encode i) ∧ ((0xFF : Word).toNat / 256 = 0) := by
  refine ⟨by decide, by decide, fun i => ?_, by decide⟩
  cases i <;> decide

theorem witness_StepRunsTheDecodedCommand :
    { blank with pending := [.writeReg 0x00 0x31, .readReg 0x04] }.pending =
        .writeReg 0x00 0x31 :: [.readReg 0x04] ∧
      decode 0x31 = .ok .pack ∧ Instr.wellFormed .pack = true := by decide

theorem witness_EveryCommandWordHasOneOutcome :
    { blank with pending := [.writeReg 0x00 0x42] }.pending = [.writeReg 0x00 0x42] ∧
      (∀ i, (0x42 : Word) ≠ encode i) ∧ (0x00 : Word) = encode .nop := by
  refine ⟨rfl, fun i => ?_, by decide⟩
  cases i <;> decide

theorem witness_IdleStepHoldsAllState : State.reset.pending = [] := rfl

theorem witness_HostRegisterWriteStoresUnderItsMask :
    { blank with pending := [.writeReg 0x50 0xFFFFFFFF] }.pending =
        [.writeReg (RegName.offset .truew) 0xFFFFFFFF] ∧
      hostReadOnly .truew = false ∧ clearsCache .truew = false ∧ hostReadOnly .page = false ∧
      clearsCache .page = true ∧ hostReadOnly .qcnt = true ∧ RegName.qcnt ≠ .cmd := by decide

theorem witness_ReservedBitsAndOffsetsReadZero :
    { blank with pending := [.writeReg 0xFC 1] }.pending = [.writeReg 0xFC 1] ∧
      { blank with pending := [.readReg 0x74] }.pending = [.readReg 0x74] ∧
      { blank with pending := [.writeReg 0x0C 0xFF] }.pending =
        [.writeReg (RegName.offset .mode) 0xFF] ∧
      ReservedBitsZero blank := by
  refine ⟨rfl, rfl, rfl, ?_⟩
  unfold ReservedBitsZero
  decide

theorem witness_HostRegisterReadOnlyAnswers :
    { blank with pending := [.readReg 0x70] }.pending = [.readReg (RegName.offset .qcnt)] := by decide

theorem witness_HostMemoryWriteThenReadGivesTheValues :
    { blank with pending := [.writeBuf 62 [1, 2], .readBuf 62 2] }.pending =
        .writeBuf 62 [1, 2] :: .readBuf 62 ([1, 2] : List Byte).length :: [] ∧
      62 + ([1, 2] : List Byte).length ≤ blank.params.bufSize ∧
      { blank with pending := [.writeImg 15 [1], .readImg 15 1] }.pending =
        .writeImg 15 [1] :: .readImg 15 ([1] : List Word).length :: [] ∧
      15 + ([1] : List Word).length ≤ blank.params.imgSize := by decide

theorem witness_OnlyUndefinedHostAccessesStop :
    { blank with pending := [.readReg 0x100] }.pending = [.readReg 0x100] ∧
      (HostAction.readReg 0x100).wellFormed blank.params = false ∧
      (HostAction.readReg 0xFC).wellFormed blank.params = true ∧
      (HostAction.writeBuf 63 [1]).wellFormed blank.params = true ∧
      (HostAction.writeBuf 64 [1]).wellFormed blank.params = false := by decide

theorem witness_ResetEventClearsRegistersAndCache :
    { session with pending := [.reset] }.pending = [.reset] := rfl

theorem witness_FirstCommandAfterReset :
    Config.defaultParams.wf ∧ Params.wf { bufSize := 0, imgSize := 2 ^ 32, clutMax := 256 } := by
  decide

theorem witness_HitFlagOnlyFromAQmatchHit :
    ∃ t, exec .qmatch session = .next t ∧ t.statusHit = true ∧ t.statusErr = 0 ∧
      session.cacheCell (encode16 (RGBA.ofWord session.opa)) ≠ none :=
  ⟨_, rfl, by decide, by decide, by decide⟩

theorem witness_CommandsWriteOnlyTheListedRegisters :
    ∃ t, exec .geom (direct 3 2 []) = .next t ∧ isView .imgw = false ∧ Instr.geom ∉ writers .imgw :=
  ⟨_, rfl, by decide, by decide⟩

theorem witness_CommandsWriteOnlyTheListedMemories :
    ∃ t, exec .pack (indexed4 ramp 4 []) = .next t ∧ Instr.pack ≠ .unpack ∧
      Instr.pack ∉ [Instr.parse, .clutld] ∧ Instr.unpack ∉ [Instr.pack, .clutst] ∧
      Instr.clutld ∈ [Instr.qclr, .qmatch, .pack, .parse, .clutld] :=
  ⟨_, rfl, by decide, by decide, by decide, by decide⟩

/-- A state with a cached key and a pending `QMATCH` of another key. -/
def busy : State := { session with opa := 0xFF000000, pending := [.writeReg 0x00 0x41] }

theorem witness_StepKeepsReservedBitsAndStatus :
    (∃ t, step busy = .next t) ∧ ReservedBitsZero busy ∧ StatusLegal busy := by
  refine ⟨⟨_, rfl⟩, ?_, ?_⟩
  · unfold ReservedBitsZero
    decide
  · unfold StatusLegal
    decide

theorem witness_StepKeepsClutCounted : (∃ t, step busy = .next t) ∧ ClutCounted busy := by
  refine ⟨⟨_, rfl⟩, ?_⟩
  unfold ClutCounted
  decide

theorem witness_StepKeepsCacheCounted :
    (∃ t, step busy = .next t) ∧ CacheCounted busy ∧ busy.cache.length = 1 := by
  refine ⟨⟨_, rfl⟩, ?_, by decide⟩
  unfold CacheCounted
  decide

theorem witness_StepKeepsCacheSound :
    (∃ t, step busy = .next t) ∧ CacheSound busy ∧ busy.cacheCell 0x001F = some 1 := by
  refine ⟨⟨_, rfl⟩, fun k i h => ?_, by decide +kernel⟩
  have hc : busy.cache = [(0x001F, 1)] := by decide +kernel
  simp only [State.cacheCell, hc, lookup_cons, lookup_nil] at h
  split at h
  · rename_i hk
    cases h
    refine ⟨.indexed4, RGBA.ofWord 0xFF0000FF, by decide +kernel, by decide +kernel, by decide +kernel, ?_, by decide +kernel, by decide +kernel⟩
    exact BitVec.eq_of_toNat_eq (by rw [hk]; decide)
  · cases h

theorem witness_StepKeepsMemoriesBounded :
    ∃ s t, step s = .next t ∧ MemoriesBounded s ∧ s.buf.length = 2 ∧ s.img.length = 1 := by
  refine ⟨{ (indexed4 page0 4 [0x10, 0x42]).writeImg 15 [7] with
    pending := [.writeBuf 63 [1]] }, _, rfl, ?_, by decide, by decide⟩
  unfold MemoriesBounded
  decide

theorem witness_CacheClearedByExactlyTheListedEvents :
    (∃ t, step { session with pending := [.writeReg 0x00 0x40] } = .next t ∧ t.statusErr = 0 ∧
        HostAction.writeReg 0x00 0x40 = .writeReg 0x00 (encode .qclr)) ∧
      (∃ t, step { session with pending := [.writeReg 0x30 0] } = .next t ∧
        HostAction.writeReg 0x30 0 = .writeReg (RegName.offset .page) 0 ∧
        clearsCache .page = true) ∧
      (∃ t, step { session with pending := [.reset] } = .next t) ∧
      (∃ t, step { session with pending := [.writeReg 0x00 0x31] } = .next t ∧
        t.statusErr ≠ 0 ∧ session.cacheCell 0x001F = some 1) :=
  ⟨⟨_, rfl, by decide, by decide⟩, ⟨_, rfl, by decide, by decide⟩, ⟨_, rfl⟩,
    ⟨_, rfl, by decide +kernel, by decide +kernel⟩⟩

theorem witness_Dec16WritesTheDecodedPixel :
    blank.ctrl.toNat % 2 ≠ 1 ∧ { blank with ctrl := 1 }.ctrl.toNat % 2 = 1 ∧
      { blank with ctrl := 1 }.opa.toNat % 2 ^ 16 = 0 := by decide

/-- Each clause at its boundary: one entry over the capacity, one byte over the stream, both exact. -/
theorem witness_ClutldCopiesTheEntries :
    let s := { blank with paloff := 62, clutn := 1, slen := 100 }
    { blank with clutn := 257 }.params.clutMax < { blank with clutn := 257 }.clutn.toNat ∧
      { blank with clutn := 256 }.clutn.toNat ≤ blank.params.clutMax ∧
      ¬({ s with paloff := 63 }.clutn.toNat = 0 ∨
        { s with paloff := 63 }.paloff.toNat + 2 * { s with paloff := 63 }.clutn.toNat ≤
          min { s with paloff := 63 }.slen.toNat { s with paloff := 63 }.params.bufSize) ∧
      s.clutn.toNat ≤ s.params.clutMax ∧
      s.paloff.toNat + 2 * s.clutn.toNat = min s.slen.toNat s.params.bufSize := by decide

theorem witness_SplitCountsThePages :
    pagesFault { blank with clen := 15 } = some 3 ∧ pagesFault { blank with mode := 2 } = some 4 ∧
      pagesFault { blank with mode := 4 } = some 4 ∧ pagesFault { blank with mode := 5 } = some 2 ∧
      pagesFault { blank with clen := 16 } = none ∧
      pagesFault { blank with mode := 1, clen := 256 } = none := by decide

theorem witness_PagerdReadsTheEntry :
    let s := indexed4 page0 4 []
    pageFault { s with page := 1 } = some 7 ∧ pageFault s = none ∧
      pageSizeNumber (formatNumber s) ≤ { s with opa := 16 }.opa.toNat ∧
      { s with opa := 15 }.opa.toNat < pageSizeNumber (formatNumber s) := by decide

theorem witness_ClutstWritesTheRawBlock :
    let s := indexed4 ramp 4 []
    ¬({ s with dst := 33 }.clen.toNat = 0 ∨
        { s with dst := 33 }.dst.toNat + 2 * { s with dst := 33 }.clen.toNat ≤ s.params.bufSize) ∧
      s.dst.toNat + 2 * s.clen.toNat = s.params.bufSize := by decide

theorem witness_ClutLoadThenStoreCopiesTheBytes :
    let s := { blank.writeBuf 0 [1, 2, 3, 4] with slen := 4, clutn := 2, dst := 60 }
    s.clutn.toNat ≤ s.params.clutMax ∧
      s.paloff.toNat + 2 * s.clutn.toNat ≤ min s.slen.toNat s.params.bufSize ∧
      s.dst.toNat + 2 * s.clutn.toNat ≤ s.params.bufSize := by decide

theorem witness_JoinedPagesAreTheRawEntries :
    ClutCounted (indexed4 (page0 ++ page1) 4 []) ∧
      (indexed4 (page0 ++ page1) 4 []).format = .plane (.indexed .indexed4) ∧
      (indexed4 (page0 ++ page1) 4 []).wholePages .indexed4 = true := by
  refine ⟨?_, by decide, by decide⟩
  unfold ClutCounted
  decide

theorem witness_PageViewsFollowTheClut :
    let s := { indexed4 (page0 ++ page1) 4 [] with page := 1 }
    let zero : Nat → Prop := fun i => s.ctrl.toNat % 2 = 1 ∧ s.clutEntry (1 * 16 + i) = 0
    pageFault { s with page := 2 } ≠ none ∧ pageFault s = none ∧ zero 5 ∧ (∀ j < 5, ¬zero j) ∧
      pageFault { s with ctrl := 0 } = none ∧ { s with ctrl := 0 }.ctrl.toNat % 2 ≠ 1 := by decide

theorem witness_NopOnlyClearsStatus :
    { session with pending := [.writeReg 0x00 0x00] }.pending = [.writeReg 0x00 0x00] := rfl

theorem witness_GeomWritesTheCorrectedWidth :
    5 ≤ formatNumber { blank with mode := 5 } ∧ formatNumber { blank with mode := 4 } = 4 ∧
      formatNumber { blank with mode := 3 } ≤ 3 := by decide

/-- A structure with `mode` and a declared CLUT size, `n` bytes long, zeros behind. -/
def header (mode clutSize : Byte) (n : Nat) (slen : Word) : State :=
  { blank.writeBuf 0 ([0x10, 0, 0, 0, mode, 0, 0, 0, clutSize, 0, 0, 0] ++ List.replicate n 0) with
    slen := slen }

/-- Every fault of the walk, by its check (V5.2), and a walk without a fault. -/
theorem witness_ParseFaultsInWalkOrder :
    parseFault (header 0 0 8 3) = some 5 ∧ parseFault (blank.writeBuf 0 [0x11, 0, 0, 0]) = some 5 ∧
      parseFault { blank.writeBuf 0 [0x11, 0, 0, 0] with slen := 4 } = some 1 ∧
      parseFault (header 5 0 8 7) = some 5 ∧ parseFault (header 5 0 8 8) = some 2 ∧
      parseFault (header 4 0 8 8) = some 4 ∧ parseFault (header 8 12 8 19) = some 5 ∧
      parseFault (header 8 11 8 20) = some 3 ∧ parseFault (header 8 44 40 51) = some 5 ∧
      parseFault (header 8 42 38 50) = some 3 ∧ parseFault (header 8 12 20 31) = some 5 ∧
      parseFault (header 8 12 20 32) = none ∧ parseFault oddClut = none ∧
      parseFault { header 8 44 40 52 with params := { blank.params with clutMax := 15 } } = some 9 := by
  decide +kernel

/-- A structure with a CLUT of fifteen entries, and one without a CLUT. -/
theorem witness_ParseLoadsTheStructure :
    parseFault oddClut = none ∧ headerHasClut oddClut = true ∧ headerEntries oddClut = 15 ∧
      parseFault { blank.writeBuf 0 p1Structure with slen := 28 } = none ∧
      headerHasClut { blank.writeBuf 0 p1Structure with slen := 28 } = false := by decide +kernel

theorem witness_TrueBytesViewIsThePlaneSize :
    formatNumber { blank with mode := 3 } ≤ 3 ∧ ¬formatNumber { blank with mode := 4 } ≤ 3 := by decide

/-- Every fault of `UNPACK` (V3.5), and a plane that ends with the stream. -/
theorem witness_UnpackFaultsInCheckOrder :
    let s := indexed4 ramp 4 [0x10, 0x42]
    unpackFault { s with mode := 7 } = some 2 ∧ unpackFault { s with mode := 4 } = some 4 ∧
      unpackFault { s with clen := 15 } = some 3 ∧ unpackFault { s with page := 1 } = some 7 ∧
      unpackFault { s with truew := 3 } = some 10 ∧ unpackFault { s with slen := 1 } = some 5 ∧
      unpackFault { s with imgbase := 13 } = some 8 ∧ unpackFault { s with imgbase := 12 } = none := by
  decide

/-- Two rows of two pixels, in each direct format. -/
def directPlane (format : Word) (bytes : Nat) : State :=
  { direct format 2 (List.replicate bytes 0x5A) with pixrectWH := 0x00020000 }

theorem witness_UnpackDirectDecodesEveryPixel :
    unpackFault (directPlane 2 8) = none ∧ formatNumber (directPlane 2 8) = 2 ∧
      unpackFault (directPlane 3 12) = none ∧ formatNumber (directPlane 3 12) = 3 ∧
      1 < (directPlane 3 12).planeWidth ∧ 1 < (directPlane 3 12).planeHeight := by decide

/-- An Indexed8 instance: 256 entries, entry `k` the code `k` (program P3), one pixel. -/
def indexed8 : State :=
  { indexed4 ((List.range 256).map (BitVec.ofNat 16)) 1 [0xFF] with mode := 1, dst := 63 }

theorem witness_UnpackIndexedLooksUpEveryPixel :
    unpackFault (indexed4 ramp 4 [0x10, 0x42]) = none ∧
      formatNumber (indexed4 ramp 4 [0x10, 0x42]) = 0 ∧
      unpackFault indexed8 = none ∧ formatNumber indexed8 = 1 := by decide +kernel

/-- A state `PACK` can run on: an image of four pixels, as `UNPACK` leaves it. -/
def packable (format : Word) : State :=
  { ((indexed4 ramp 4 []).writeImg 0 [0xFF080808, 0, 0x80080808, 0xFFFFFFFF]).setImageSize 4 1 with
    mode := format }

/-- Every fault of `PACK`, and a plane that ends with `BUF`. -/
theorem witness_PackFaultsInCheckOrder :
    let s := packable 0
    packFault { s with mode := 5 } = some 2 ∧ packFault { s with mode := 3 } = some 4 ∧
      packFault { s with mode := 4 } = some 4 ∧ packFault { s with clen := 15 } = some 3 ∧
      packFault { s with page := 1 } = some 7 ∧ packFault { s with truew := 3 } = some 10 ∧
      packFault { s with imgh := 2 } = some 6 ∧ packFault { s with imgbase := 13 } = some 5 ∧
      packFault { s with dst := 63 } = some 8 ∧ packFault { s with dst := 62 } = none := by decide

theorem witness_PackDirect15EncodesEveryPixel :
    packFault (packable 2) = none ∧ formatNumber (packable 2) = 2 := by decide

theorem witness_PackIndexedUsesTheFirstPixelOfEachKey :
    packFault (packable 0) = none ∧ (packable 0).format = .plane (.indexed .indexed4) ∧
      packFault (indexed8.setImageSize 1 1) = none ∧
      (indexed8.setImageSize 1 1).format = .plane (.indexed .indexed8) := by decide +kernel

/-- Two states that differ in the cache, in `DST` and in the page's place. -/
theorem witness_PackDependsOnlyOnItsOperands :
    let s := packable 0
    let s' := { packable 0 with
      clut := page0 ++ ramp, clen := 32, page := 1, dst := 0x30, cache := [(0, 9)], qcnt := 1 }
    (∃ t, exec .pack s = .next t ∧ t.statusErr = 0) ∧
      (∃ t', exec .pack s' = .next t' ∧ t'.statusErr = 0) ∧
      s.format = s'.format ∧ s.te = s'.te ∧ s.planeWidth = s'.planeWidth ∧
      s.planeHeight = s'.planeHeight ∧ (∀ i < s.pixelCount, imagePixel s i = imagePixel s' i) ∧
      ∀ i < 16, s.clutEntry (s.page.toNat * 16 + i) = s'.clutEntry (s'.page.toNat * 16 + i) :=
  ⟨⟨_, rfl, by decide +kernel⟩, ⟨_, rfl, by decide +kernel⟩, by decide, by decide, by decide,
    by decide, by decide +kernel, by decide +kernel⟩

/-- The same plane at another place of `BUF`, the same page at another place of the CLUT. -/
theorem witness_UnpackDependsOnlyOnItsOperands :
    let s := indexed4 ramp 4 [0x10, 0x42]
    let s' := { indexed4 (page0 ++ ramp) 4 [0, 0x10, 0x42] with page := 1, pixoff := 1, imgbase := 5 }
    (∃ t, exec .unpack s = .next t ∧ t.statusErr = 0) ∧
      (∃ t', exec .unpack s' = .next t' ∧ t'.statusErr = 0) ∧
      s.format = s'.format ∧ s.te = s'.te ∧ s.planeWidth = s'.planeWidth ∧
      s.planeHeight = s'.planeHeight ∧
      (∀ j < sizeNumber (formatNumber s) s.planeWidth s.planeHeight,
        s.bufByte (s.pixoff.toNat + j) = s'.bufByte (s'.pixoff.toNat + j)) ∧
      ∀ i < 16, s.clutEntry (s.page.toNat * 16 + i) = s'.clutEntry (s'.page.toNat * 16 + i) :=
  ⟨⟨_, rfl, by decide +kernel⟩, ⟨_, rfl, by decide +kernel⟩, by decide, by decide, by decide,
    by decide, by decide +kernel, by decide +kernel⟩

/-- The page of 95_test_vectors 1.5, whose entries have pairwise distinct low 15 bits. -/
theorem witness_IndexedRoundTripOfADistinctPage :
    let s := indexed4 ramp 4 [0x10, 0x42]
    s.format = .plane (.indexed .indexed4) ∧ unpackFault s = none ∧
      s.dst.toNat + sizeNumber (formatNumber s) s.planeWidth s.planeHeight ≤ s.params.bufSize ∧
      ∀ i < 16, ∀ j < 16, i ≠ j →
        (s.clutEntry (s.page.toNat * 16 + i)).toNat % 2 ^ 15 ≠
          (s.clutEntry (s.page.toNat * 16 + j)).toNat % 2 ^ 15 := by decide +kernel

/-- The plane of program P1, on a `DST` that ends with `BUF`. -/
theorem witness_Direct15RoundTripLosesOnlyStp :
    let s := { direct 2 4 [0x00, 0x80, 0xFF, 0x7F, 0, 0, 0x1F, 0] with dst := 56 }
    formatNumber s = 2 ∧ unpackFault s = none ∧
      s.dst.toNat + 2 * (s.planeWidth * s.planeHeight) = s.params.bufSize := by decide

theorem witness_QmatchFaultsInCheckOrder :
    pageFault { session with mode := 6 } = some 2 ∧ pageFault { session with mode := 2 } = some 4 ∧
      pageFault { session with clen := 15 } = some 3 ∧ pageFault { session with page := 1 } = some 7 := by
  decide

theorem witness_QmatchHitReturnsTheCachedIndex :
    pageFault session = none ∧ session.cacheCell (encode16 (RGBA.ofWord session.opa)) = some 1 := by
  decide +kernel

/-- A miss with alpha 0, on a page with a transparent entry and on one without, and with alpha 255. -/
theorem witness_QmatchMissResolvesAndCaches :
    pageFault { session with opa := 0 } = none ∧
      { session with opa := 0 }.cacheCell (encode16 (RGBA.ofWord 0)) = none ∧
      (RGBA.ofWord 0).a = 0 ∧
      (decode16 (session.clutEntry 0) (session.ctrl.getLsbD 0)).a = 0 ∧
      (∀ j < 16, (decode16 (session.clutEntry (0 * 16 + j)) false).a ≠ 0) ∧
      session.cacheCell (encode16 (RGBA.ofWord 0xFF000000)) = none ∧
      (RGBA.ofWord 0xFF000000).a ≠ 0 := by decide

/-- Opaque black and its near neighbour share the key 0 (V4.2). -/
theorem witness_QmatchAgainWithTheSameKeyHits :
    pageFault { session with opa := 0xFF000000 } = none ∧
      encode16 (RGBA.ofWord 0xFF000007) = encode16 (RGBA.ofWord 0xFF000000) := by decide

end Sys2Proof.Tests
end

section
/-!
PROOFS. The computed registers of the map (10_state R48 to R50): what `PAGECNT`, `PTRANS` and the two
`TRUEBYTES` registers read as, said once per case of the checks they depend on.
-/

namespace Sys2Proof.Machine

open Sys2Proof.Safety

/-! ## Register fields as numbers -/

theorem te_iff {s : State} : s.te = true ↔ s.ctrl.toNat % 2 = 1 := by
  rw [State.te, BitVec.getLsbD, Nat.testBit_zero, decide_eq_true_eq]

theorem planeWidth_eq (s : State) : s.planeWidth = s.truew.toNat % 2 ^ 18 := by
  simp [State.planeWidth]

theorem planeHeight_eq (s : State) : s.planeHeight = s.pixrectWH.toNat / 2 ^ 16 := by
  simp only [State.planeHeight, BitVec.extractLsb'_toNat, Nat.shiftRight_eq_div_pow]
  omega

/-! ## Transparent entries -/

/-- Only the code 0 decodes to alpha 0, and only under `TE` (40_color_codec R132). -/
theorem decode16_alpha_eq_zero {c : Color16} {te : Bool} :
    (decode16 c te).a = 0 ↔ te = true ∧ c = 0 := by
  simp [decode16]

theorem pageEntry_alpha_eq_zero {s : State} {f : IndexedFormat} {p i : Nat} :
    (s.pageEntry f p i).a = 0 ↔
      s.ctrl.toNat % 2 = 1 ∧ s.clutEntry (p * f.pageSize + i) = 0 := by
  rw [State.pageEntry, decode16_alpha_eq_zero, te_iff]

theorem ptrans_eq_none {s : State} {f : IndexedFormat} {p : Nat} :
    s.ptrans f p = none ↔ ∀ i < f.pageSize, (s.pageEntry f p i).a ≠ 0 := by
  simp [State.ptrans]

/-! ## `PAGECNT` -/

theorem pageCount_lt (s : State) (f : IndexedFormat) : s.pageCount f < 2 ^ 32 :=
  Nat.lt_of_le_of_lt (Nat.div_le_self _ _) s.clen.isLt

theorem readReg_pagecnt_of_checkPages_ok {s : State} {f : IndexedFormat}
    (h : s.checkPages = .ok f) : (s.readReg .pagecnt).toNat = s.pageCount f := by
  obtain ⟨hformat, hwhole⟩ := checkPages_eq_ok.1 h
  have hread : s.readReg .pagecnt = BitVec.ofNat 32 (s.pageCount f) := by
    simp [State.readReg, State.pagecntView, hformat, hwhole]
  rw [hread, BitVec.toNat_ofNat, Nat.mod_eq_of_lt (pageCount_lt s f)]

theorem readReg_pagecnt_of_checkPages_error {s : State} {e : ErrorKind}
    (h : s.checkPages = .error e) : s.readReg .pagecnt = 0 := by
  simp only [State.readReg, State.pagecntView]
  split
  case h_1 f hformat =>
    have hwhole : ¬s.wholePages f = true := fun hw => by
      simp [checkPages_eq_ok.2 ⟨hformat, hw⟩] at h
    exact if_neg hwhole
  all_goals rfl

/-! ## `PTRANS` -/

theorem readReg_ptrans_of_checkPage_error {s : State} {e : ErrorKind}
    (h : s.checkPage = .error e) : s.readReg .ptrans = 0 := by
  simp only [State.readReg, State.ptransView]
  split
  case h_1 f hformat =>
    have hpage : ¬(s.wholePages f && s.page.toNat < s.pageCount f) = true := fun hp => by
      rw [Bool.and_eq_true, decide_eq_true_eq] at hp
      simp [checkPage_eq_ok.2 ⟨hformat, hp⟩] at h
    exact if_neg hpage
  all_goals rfl

theorem readReg_ptrans_of_none {s : State} {f : IndexedFormat} (h : s.checkPage = .ok f)
    (hnone : s.ptrans f s.page.toNat = none) : s.readReg .ptrans = 0 := by
  obtain ⟨hformat, hwhole, hpage⟩ := checkPage_eq_ok.1 h
  simp [State.readReg, State.ptransView, hformat, hwhole, hpage, hnone]

theorem readReg_ptrans_of_some {s : State} {f : IndexedFormat} {i : Nat}
    (h : s.checkPage = .ok f) (hsome : s.ptrans f s.page.toNat = some i) :
    (s.readReg .ptrans).toNat = 0x100 + i := by
  obtain ⟨hformat, hwhole, hpage⟩ := checkPage_eq_ok.1 h
  have hread : s.readReg .ptrans = BitVec.ofNat 32 (0x100 + i) := by
    simp [State.readReg, State.ptransView, hformat, hwhole, hpage, hsome]
  have hi : i < 256 := Nat.lt_of_lt_of_le (ptrans_eq_some.1 hsome).1 (pageSize_pos f).2
  rw [hread, BitVec.toNat_ofNat]
  omega

/-! ## `TRUEBYTES` -/

theorem trueBytes_eq (s : State) :
    s.trueBytes =
      if formatNumber s ≤ 3 then
        sizeNumber (formatNumber s) (s.truew.toNat % 2 ^ 18) (s.pixrectWH.toNat / 2 ^ 16)
      else 0 := by
  unfold State.trueBytes
  split
  case h_1 f hformat =>
    have hcode : planeNumber f ≤ 3 := by rcases f with ⟨_ | _⟩ | _ | _ <;> decide
    rw [format_eq_plane.1 hformat, if_pos hcode, sizeNumber_plane, planeWidth_eq, planeHeight_eq]
  case h_2 hformat => rw [format_eq_mixed.1 hformat, if_neg (by decide)]
  case h_3 hformat =>
    have hcode := format_eq_invalid.1 hformat
    rw [if_neg (by omega)]

/-- No plane format has more than three bytes a pixel. -/
theorem sizeNumber_le (f w h : Nat) : sizeNumber f w h ≤ 3 * (w * h) := by
  unfold sizeNumber
  split_ifs <;> omega

/-- An 18-bit width and a 16-bit height at three bytes a pixel fit in 36 bits. -/
theorem trueBytes_lt (s : State) : s.trueBytes < 2 ^ 36 := by
  rw [trueBytes_eq]
  split_ifs
  · have hwidth : s.truew.toNat % 2 ^ 18 ≤ 2 ^ 18 := (Nat.mod_lt _ (by decide)).le
    have hheight : s.pixrectWH.toNat / 2 ^ 16 ≤ 2 ^ 16 := by omega
    calc sizeNumber (formatNumber s) (s.truew.toNat % 2 ^ 18) (s.pixrectWH.toNat / 2 ^ 16)
        ≤ 3 * (s.truew.toNat % 2 ^ 18 * (s.pixrectWH.toNat / 2 ^ 16)) := sizeNumber_le _ _ _
      _ ≤ 3 * (2 ^ 18 * 2 ^ 16) := Nat.mul_le_mul_left 3 (Nat.mul_le_mul hwidth hheight)
      _ < 2 ^ 36 := by decide
  · decide

theorem readReg_truebytesLo (s : State) :
    (s.readReg .truebytesLo).toNat = s.trueBytes % 2 ^ 32 := by
  simp [State.readReg]

theorem readReg_truebytesHi (s : State) :
    (s.readReg .truebytesHi).toNat = s.trueBytes / 2 ^ 32 := by
  have := trueBytes_lt s
  simp only [State.readReg, BitVec.toNat_ofNat]
  omega

/-! ## The statements -/

/-- Settles O36, by what `checkPages` and `checkPage` answer; where the page exists, `ptrans` is the
first index whose entry decodes to alpha 0, which is the first raw 0 under `TE`. -/
theorem pageViewsFollowTheClut : Obligations.PageViewsFollowTheClut := by
  intro s
  simp only [pagesFault_eq, pageFault_eq]
  refine ⟨?pagecnt, ?noPage, ?noEntry, ?firstEntry⟩
  case pagecnt =>
    cases h : s.checkPages with
    | ok f =>
      rw [if_pos (faultCode_ok f), readReg_pagecnt_of_checkPages_ok h,
        format_eq_plane.1 (checkPages_eq_ok.1 h).1, pageSizeNumber_plane, State.pageCount]
    | error e =>
      rw [if_neg (by simp), readReg_pagecnt_of_checkPages_error h]
      rfl
  case noPage =>
    intro hfault
    cases h : s.checkPage with
    | ok f => exact absurd (faultCode_eq_none.2 ⟨f, h⟩) hfault
    | error e => exact readReg_ptrans_of_checkPage_error h
  case noEntry =>
    intro hnone hno
    obtain ⟨f, h⟩ := faultCode_eq_none.1 hnone
    rw [format_eq_plane.1 (checkPage_eq_ok.1 h).1, pageSizeNumber_plane] at hno
    refine readReg_ptrans_of_none h (ptrans_eq_none.2 fun i hi => ?_)
    exact mt pageEntry_alpha_eq_zero.1 (hno i hi)
  case firstEntry =>
    intro i hi hnone hzero hfirst
    obtain ⟨f, h⟩ := faultCode_eq_none.1 hnone
    rw [format_eq_plane.1 (checkPage_eq_ok.1 h).1, pageSizeNumber_plane] at hi hzero hfirst
    refine readReg_ptrans_of_some h (ptrans_eq_some.2 ⟨hi, ?_, fun j hj => ?_⟩)
    · exact pageEntry_alpha_eq_zero.2 hzero
    · exact mt pageEntry_alpha_eq_zero.1 (hfirst j hj)

/-- Settles O41: the two registers are the halves of `trueBytes`, which is below 2 ^ 36. -/
theorem trueBytesViewIsThePlaneSize : Obligations.TrueBytesViewIsThePlaneSize := by
  intro s
  rw [readReg_truebytesLo, readReg_truebytesHi, ← trueBytes_eq]
  have := trueBytes_lt s
  exact ⟨Nat.mod_add_div _ _, by omega⟩

end Sys2Proof.Machine
end

section
/-!
PROOFS. The decoder (30_encoding R100 to R102): a word is a command exactly when it is the command's
encoding, and what a write of either kind of word to `CMD` does.
-/

namespace Sys2Proof

/-- The opcode map read by opcode and the map read by command are one map (30_encoding R102). -/
theorem decodeOpcode_opcodeOf (i : Instr) : decodeOpcode (opcodeOf i) = .ok i := by
  cases i <;> decide

/-- The thirteen rows are tried in turn: a row answers its own command, or leaves the rows after it. -/
theorem eq_opcodeOf_of_decodeOpcode {opc : Byte} {i : Instr} (h : decodeOpcode opc = .ok i) :
    opc = opcodeOf i := by
  simp only [decodeOpcode, ite_eq_iff, Except.ok.injEq, reduceCtorEq, and_false, or_false] at h
  iterate 12
    obtain ⟨rfl, rfl⟩ | ⟨-, h⟩ := h
    · rfl
  obtain ⟨rfl, rfl⟩ := h
  rfl

/-- A word is put together from its two fields again (30_encoding R100). -/
theorem eq_zeroField_append_opcodeField (w : Word) :
    w = w.extractLsb' 8 24 ++ w.extractLsb' 0 8 := by
  calc w = w.extractLsb' 0 32 := BitVec.extractLsb'_eq_self.symm
    _ = w.extractLsb' 8 24 ++ w.extractLsb' 0 8 :=
      (BitVec.extractLsb'_append_extractLsb'_eq_extractLsb' (Nat.zero_add 8).symm).symm

open Laws.WordFormat in
/-- The two fields of every encoding, from the lemmas per command. -/
theorem encode_fields (i : Instr) : Laws.WordFormat.Statement i := by
  cases i
  exacts [nop, dec16, enc16, clutld, split, pagerd, clutst, parse, geom, unpack, pack, qclr, qmatch]

theorem decode_encode (i : Instr) : decode (encode i) = .ok i := by
  obtain ⟨hopcode, hzero⟩ := encode_fields i
  rw [decode, if_pos hzero, hopcode, decodeOpcode_opcodeOf]

theorem eq_encode_of_decode {w : Word} {i : Instr} (h : decode w = .ok i) : w = encode i := by
  unfold decode at h
  split_ifs at h with hzero
  rw [eq_zeroField_append_opcodeField w, hzero, eq_opcodeOf_of_decodeOpcode h, encode]

/-- The words that decode are the thirteen encodings (30_encoding R101). -/
theorem decode_eq_ok {w : Word} {i : Instr} : decode w = .ok i ↔ w = encode i :=
  ⟨eq_encode_of_decode, fun h => h ▸ decode_encode i⟩

end Sys2Proof

namespace Sys2Proof.Machine

theorem issue_encode (i : Instr) (s : State) :
    issue (encode i) s = exec i (s.storeReg .cmd (encode i)) := by
  rw [issue, decode_encode]

theorem issue_of_ne_encode {w : Word} (h : ∀ i, w ≠ encode i) (s : State) :
    issue w s = .next (takeFault .illegalCommand (s.storeReg .cmd w)) := by
  unfold issue
  split
  case h_1 i hdecode => exact absurd (decode_eq_ok.1 hdecode) (h i)
  case h_2 => rfl

end Sys2Proof.Machine
end

section
/-!
PROOFS. The host's accesses to the register block (10_state R47, R57): what a step does with one, at a
register's offset and at a reserved one, and what the write masks of 30_encoding R113 keep at 0.
-/

namespace Sys2Proof.Machine

open Sys2Proof.Safety

/-! ## Offsets -/

theorem ofOffset_offset (r : RegName) : RegName.ofOffset r.offset = some r := by
  cases r <;> rfl

/-- Every register is a word of the block, and `QCNT` is the last (10_state R57). -/
theorem offset_aligned_le (r : RegName) : r.offset % 4 = 0 ∧ r.offset ≤ 0x70 := by
  cases r <;> decide

theorem ofOffset_reserved {o : Nat} (h : 0x74 ≤ o) : RegName.ofOffset o = none := by
  refine List.find?_eq_none.2 fun r _ => ?_
  have hle := (offset_aligned_le r).2
  rw [decide_eq_true_eq]
  omega

theorem atRegister_ok {o : Nat} (haligned : o % 4 = 0) (hblock : o < 0x100)
    (go : Host.Outcome State Fault Refusal) : atRegister o go = go := by
  rw [atRegister, if_neg (not_not.2 haligned), if_neg (Nat.not_le.2 hblock)]

theorem atRegister_offset (r : RegName) (go : Host.Outcome State Fault Refusal) :
    atRegister r.offset go = go := by
  obtain ⟨haligned, hle⟩ := offset_aligned_le r
  exact atRegister_ok haligned (by omega) go

/-! ## The step that makes a register access -/

theorem step_writeCmd {s : State} {rest : List HostAction} {w : Word}
    (h : s.pending = .writeReg (RegName.offset .cmd) w :: rest) :
    step s = issue w (s.withPending rest) := by
  rw [step, advance_action h, hostAct, atRegister_offset, hostWriteReg, ofOffset_offset]

theorem step_writeReg {s : State} {rest : List HostAction} {r : RegName} {v : Word}
    (h : s.pending = .writeReg r.offset v :: rest) (hr : r ≠ .cmd) :
    step s = .next ((s.withPending rest).storeReg r v) := by
  rw [step, advance_action h, hostAct, atRegister_offset, hostWriteReg, ofOffset_offset]
  cases r
  case cmd => exact absurd rfl hr
  all_goals rfl

section Reserved

variable {s : State} {rest : List HostAction} {o : Nat}
  (haligned : o % 4 = 0) (hreserved : 0x74 ≤ o) (hblock : o < 0x100)
include haligned hreserved hblock

theorem step_writeReserved {v : Word} (h : s.pending = .writeReg o v :: rest) :
    step s = .next (s.withPending rest) := by
  rw [step, advance_action h, hostAct, atRegister_ok haligned hblock, hostWriteReg,
    ofOffset_reserved hreserved]

theorem step_readReserved (h : s.pending = .readReg o :: rest) :
    step s = .next ((s.withPending rest).addReply (.register 0)) := by
  rw [step, advance_action h, hostAct, atRegister_ok haligned hblock, State.readOffset,
    ofOffset_reserved hreserved]

end Reserved

/-! ## Write masks -/

theorem and_word_max (v : Word) : v &&& 0xFFFFFFFF = v := BitVec.and_allOnes

theorem readReg_storeReg {r : RegName} (hr : hostReadOnly r = false) (s : State) (v : Word) :
    (s.storeReg r v).readReg r = v &&& writeMask r := by
  cases r
  case ctrl | mode | truew => rfl
  case status | res | clen | qcnt | pagecnt | ptrans | truebytesLo | truebytesHi => cases hr
  all_goals exact (and_word_max v).symm

/-- A mask of the low `k` bits keeps a value below `2 ^ k`. -/
theorem and_lowMask {x m : Word} {k : Nat} (hm : m.toNat = 2 ^ k - 1) (hx : x.toNat < 2 ^ k) :
    x &&& m = x := by
  apply BitVec.eq_of_toNat_eq
  rw [BitVec.toNat_and, hm, Nat.and_two_pow_sub_one_of_lt_two_pow hx]

theorem readReg_and_writeMask {s : State} (h : ReservedBitsZero s) (r : RegName) :
    s.readReg r &&& writeMask r = s.readReg r := by
  obtain ⟨hctrl, hmode, htruew⟩ := h
  cases r
  case ctrl => exact and_lowMask (k := 1) rfl hctrl
  case mode => exact and_lowMask (k := 4) rfl hmode
  case truew => exact and_lowMask (k := 18) rfl htruew
  all_goals exact and_word_max _

/-- What lies under a mask has no bit outside it. -/
theorem and_not_mask {x m : Word} (h : x &&& m = x) : x &&& ~~~m = 0 := by
  rw [← h, BitVec.and_assoc, BitVec.and_not_self]
  exact BitVec.and_zero

theorem maskedRegister_writable :
    ∀ r ∈ [RegName.ctrl, .mode, .truew], r ≠ .cmd ∧ hostReadOnly r = false := by decide

/-! ## The statements -/

/-- Settles O5: the step issues the word, and the words that decode are the encodings. -/
theorem everyCommandWordHasOneOutcome : Obligations.EveryCommandWordHasOneOutcome := by
  intro s rest w hpending
  rw [step_writeCmd hpending]
  refine ⟨?command, ?illegal⟩
  case command =>
    rintro i rfl
    exact issue_encode i _
  case illegal =>
    intro hw
    exact issue_of_ne_encode hw _

/-- Settles O9: a reserved offset names no register; a value that its register's write mask keeps, as
both the invariant and the write give, has no reserved bit. -/
theorem reservedBitsAndOffsetsReadZero : Obligations.ReservedBitsAndOffsetsReadZero := by
  refine ⟨?offsets, ?bits⟩
  case offsets =>
    intro s rest o v haligned hreserved hblock
    exact ⟨step_writeReserved haligned hreserved hblock,
      step_readReserved haligned hreserved hblock⟩
  case bits =>
    intro s rest r v hr hzero
    obtain ⟨hcmd, hwritable⟩ := maskedRegister_writable r hr
    refine ⟨and_not_mask (readReg_and_writeMask hzero r), fun hpending => ?_⟩
    have hread := readReg_storeReg hwritable (s.withPending rest) v
    refine ⟨_, step_writeReg hpending hcmd, hread, and_not_mask ?_⟩
    rw [hread, BitVec.and_assoc, BitVec.and_self]

end Sys2Proof.Machine
end

section
/-!
PROOFS. The Color Codec (40_color_codec R130 to R134): the pixel a code decodes to and the code a pixel
encodes to, as integers, and what the two commands write.
-/

namespace Sys2Proof

/-! ## Fields side by side -/

theorem toNat_append_eq_add {n m : Nat} (x : BitVec n) (y : BitVec m) :
    (x ++ y).toNat = y.toNat + 2 ^ m * x.toNat := by
  rw [BitVec.toNat_append, Nat.shiftLeft_eq, Nat.mul_comm,
    ← Nat.two_pow_add_eq_or_of_lt y.isLt, Nat.add_comm]

/-- A field put above the bits in use adds to them. -/
theorem toNat_or_shiftLeft {w i : Nat} {x y : BitVec w} (hx : x.toNat < 2 ^ i)
    (hy : y.toNat * 2 ^ i < 2 ^ w) : (x ||| y <<< i).toNat = x.toNat + 2 ^ i * y.toNat := by
  rw [BitVec.toNat_or, BitVec.toNat_shiftLeft, Nat.shiftLeft_eq, Nat.mod_eq_of_lt hy, Nat.or_comm,
    Nat.mul_comm, ← Nat.two_pow_add_eq_or_of_lt hx, Nat.add_comm]

/-! ## Pixels as integers (30_encoding R105) -/

theorem word_toNat (px : RGBA) :
    px.word.toNat =
      px.r.toNat + 2 ^ 8 * px.g.toNat + 2 ^ 16 * px.b.toNat + 2 ^ 24 * px.a.toNat := by
  simp only [RGBA.word, toNat_append_eq_add]
  ring

theorem ofWord_r_toNat (w : Word) : (RGBA.ofWord w).r.toNat = w.toNat % 256 := by
  simp [RGBA.ofWord]

theorem ofWord_g_toNat (w : Word) : (RGBA.ofWord w).g.toNat = w.toNat / 2 ^ 8 % 256 := by
  simp [RGBA.ofWord, Nat.shiftRight_eq_div_pow]

theorem ofWord_b_toNat (w : Word) : (RGBA.ofWord w).b.toNat = w.toNat / 2 ^ 16 % 256 := by
  simp [RGBA.ofWord, Nat.shiftRight_eq_div_pow]

/-- Alpha is the highest byte: no bit stands above it. -/
theorem ofWord_a_toNat (w : Word) : (RGBA.ofWord w).a.toNat = w.toNat / 2 ^ 24 := by
  have hw : w.toNat / 2 ^ 24 < 2 ^ 8 := by omega
  simp only [RGBA.ofWord, BitVec.extractLsb'_toNat, Nat.shiftRight_eq_div_pow, Nat.mod_eq_of_lt hw]

end Sys2Proof

namespace Sys2Proof.Machine

/-! ## Channels -/

theorem expand5_toNat (field : BitVec 5) : (expand5 field).toNat = 8 * field.toNat := by
  simp only [expand5, BitVec.toNat_shiftLeft, BitVec.toNat_setWidth, Nat.shiftLeft_eq]
  omega

theorem reduce5_toNat (channel : Byte) : (reduce5 channel).toNat = channel.toNat / 8 := by
  simp only [reduce5, BitVec.toNat_setWidth, BitVec.toNat_ushiftRight, Nat.shiftRight_eq_div_pow]
  omega

theorem reduce5_lt (channel : Byte) : (reduce5 channel).toNat < 2 ^ 5 := by
  rw [reduce5_toNat]
  omega

/-! ## Decoding (40_color_codec R130) -/

theorem decode16_r_toNat (c : Color16) (te : Bool) :
    (decode16 c te).r.toNat = 8 * (c.toNat % 32) := by
  simp [decode16, expand5_toNat]

theorem decode16_g_toNat (c : Color16) (te : Bool) :
    (decode16 c te).g.toNat = 8 * (c.toNat / 32 % 32) := by
  simp [decode16, expand5_toNat, Nat.shiftRight_eq_div_pow]

theorem decode16_b_toNat (c : Color16) (te : Bool) :
    (decode16 c te).b.toNat = 8 * (c.toNat / 1024 % 32) := by
  simp [decode16, expand5_toNat, Nat.shiftRight_eq_div_pow]

/-- Alpha is 0 only for the code 0, and only under `TE` (40_color_codec R132). -/
theorem decode16_a_toNat (c : Color16) (te : Bool) :
    (decode16 c te).a.toNat = if te = true ∧ c.toNat = 0 then 0 else 255 := by
  have hzero : c = 0x0000 ↔ c.toNat = 0 := BitVec.toNat_inj.symm
  simp only [decode16, Bool.and_eq_true, decide_eq_true_eq, hzero, apply_ite BitVec.toNat]
  rfl

theorem decode16_word_toNat (c : Color16) (te : Bool) :
    (decode16 c te).word.toNat =
      8 * (c.toNat % 32) + 2 ^ 8 * (8 * (c.toNat / 32 % 32)) +
        2 ^ 16 * (8 * (c.toNat / 1024 % 32)) +
        2 ^ 24 * (if te = true ∧ c.toNat = 0 then 0 else 255) := by
  rw [word_toNat, decode16_r_toNat, decode16_g_toNat, decode16_b_toNat, decode16_a_toNat]

/-! ## Encoding (40_color_codec R133) -/

/-- Bit 15 of a code as a field of its own: the semi-transparency flag, set unless alpha is 255. -/
def stpField (a : Byte) : Color16 := if a = 255 then 0 else 1

theorem stpField_toNat (a : Byte) : (stpField a).toNat = if a.toNat = 255 then 0 else 1 := by
  have hopaque : a = 255 ↔ a.toNat = 255 := BitVec.toNat_inj.symm
  simp only [stpField, hopaque, apply_ite BitVec.toNat]
  rfl

theorem encode16_eq_fields (px : RGBA) :
    encode16 px =
      reduce5 px.r ||| reduce5 px.g <<< 5 ||| reduce5 px.b <<< 10 ||| stpField px.a <<< 15 := by
  have hbit : (if px.a = 255 then 0 else 0x8000 : Color16) = stpField px.a <<< 15 := by
    unfold stpField
    split_ifs <;> rfl
  rw [encode16, hbit]

/-- The four fields of a code overlap nowhere, so their `or` is a sum. -/
theorem encode16_toNat (px : RGBA) :
    (encode16 px).toNat =
      px.r.toNat / 8 + 32 * (px.g.toNat / 8) + 1024 * (px.b.toNat / 8) +
        (if px.a.toNat = 255 then 0 else 2 ^ 15) := by
  have hr := reduce5_lt px.r
  have hg := reduce5_lt px.g
  have hb := reduce5_lt px.b
  have ha : (stpField px.a).toNat ≤ 1 := by
    rw [stpField_toNat]
    split_ifs <;> decide
  have hrg : (reduce5 px.r ||| reduce5 px.g <<< 5).toNat = _ :=
    toNat_or_shiftLeft hr (by omega)
  have hrgb : (reduce5 px.r ||| reduce5 px.g <<< 5 ||| reduce5 px.b <<< 10).toNat = _ :=
    toNat_or_shiftLeft (by omega) (by omega)
  rw [encode16_eq_fields, toNat_or_shiftLeft (by omega) (by omega), hrgb, hrg, stpField_toNat,
    reduce5_toNat, reduce5_toNat, reduce5_toNat, mul_ite]
  rfl

/-- What `ENC16` reads of its operand, down to the code. -/
theorem encode16_ofWord_toNat (w : Word) :
    (encode16 (RGBA.ofWord w)).toNat =
      w.toNat % 256 / 8 + 32 * (w.toNat / 2 ^ 8 % 256 / 8) +
        1024 * (w.toNat / 2 ^ 16 % 256 / 8) + (if w.toNat / 2 ^ 24 = 255 then 0 else 2 ^ 15) := by
  rw [encode16_toNat, ofWord_r_toNat, ofWord_g_toNat, ofWord_b_toNat, ofWord_a_toNat]

/-! ## The two commands -/

theorem opaCode_toNat (s : State) : s.opaCode.toNat = s.opa.toNat % 2 ^ 16 := by
  simp [State.opaCode]

/-- `DEC16` has no check to fail (40_color_codec R131). -/
theorem exec_dec16 (s : State) :
    exec .dec16 s = .next { s with res := (decode16 s.opaCode s.te).word, status := 0 } := rfl

/-- `ENC16` has no check to fail (40_color_codec R134). -/
theorem exec_enc16 (s : State) :
    exec .enc16 s =
      .next { s with res := (encode16 (RGBA.ofWord s.opa)).setWidth 32, status := 0 } := rfl

/-! ## The statements -/

/-- Settles O26: the word `DEC16` writes is the decoded pixel of the code in `OPA`. -/
theorem dec16WritesTheDecodedPixel : Obligations.Dec16WritesTheDecodedPixel := by
  refine ⟨rfl, fun s => ⟨_, exec_dec16 s, ?_⟩⟩
  simp only [decode16_word_toNat, opaCode_toNat, te_iff]

/-- Settles O27: the word `ENC16` writes is a function of `OPA` alone. -/
theorem enc16WritesTheEncodedCode : Obligations.Enc16WritesTheEncodedCode := by
  refine ⟨rfl, fun s => ⟨_, exec_enc16 s, fun c => exec_enc16 { s with ctrl := c }, ?_⟩⟩
  rw [BitVec.toNat_setWidth_of_le (by decide), encode16_ofWord_toNat]

end Sys2Proof.Machine
end

section
/-!
PROOFS. The Palette Page Manager's loads and lookups (41_palette_pages R155 to R159): `CLUTLD`, `SPLIT` and
`PAGERD`, each as the fault its checks raise first and, where they raise none, the exact next state.
-/

namespace Sys2Proof.Machine

open Sys2Proof.Safety

/-! ## A fault in front decides -/

theorem faultCode_bind_of_some {α β : Type} {x : Except ErrorKind α} {c : Nat}
    (h : faultCode x = some c) (k : α → Except ErrorKind β) : faultCode (x >>= k) = some c := by
  cases x with
  | ok a => simp at h
  | error e => exact h

/-! ## The page checks that pass, by the tables (41_palette_pages R156) -/

theorem pageSize_of_format {s : State} {f : IndexedFormat} (h : s.format = .plane (.indexed f)) :
    pageSizeNumber (formatNumber s) = f.pageSize := by
  rw [format_eq_plane.1 h, pageSizeNumber_plane]

theorem checkPages_of_pagesFault_none {s : State} (h : pagesFault s = none) :
    ∃ f, s.checkPages = .ok f ∧ pageSizeNumber (formatNumber s) = f.pageSize := by
  obtain ⟨f, hf⟩ := faultCode_eq_none.1 (pagesFault_eq s ▸ h)
  exact ⟨f, hf, pageSize_of_format (checkPages_eq_ok.1 hf).1⟩

theorem checkPage_of_pageFault_none {s : State} (h : pageFault s = none) :
    ∃ f, s.checkPage = .ok f ∧ pageSizeNumber (formatNumber s) = f.pageSize := by
  obtain ⟨f, hf⟩ := faultCode_eq_none.1 (pageFault_eq s ▸ h)
  exact ⟨f, hf, pageSize_of_format (checkPage_eq_ok.1 hf).1⟩

/-! ## Raw entries in `BUF` (30_encoding R109) -/

theorem bufRead_two (s : State) (a : Nat) :
    s.bufRead a 2 = (s.bufByte a).toNat + 256 * (s.bufByte (a + 1)).toNat := by
  simp [State.bufRead, State.bufBytes, bytesToNat]

theorem bufEntry_toNat (s : State) (a : Nat) :
    (BitVec.ofNat 16 (s.bufRead a 2)).toNat =
      (s.bufByte a).toNat + 256 * (s.bufByte (a + 1)).toNat := by
  rw [BitVec.toNat_ofNat, ← bufRead_two]
  exact Nat.mod_eq_of_lt (bufRead_lt s a 2)

/-- Two bytes an entry: the block of `n` entries is empty exactly for `n = 0`. -/
theorem streamAdmitted_entries {s : State} {a n : Nat} :
    s.streamAdmitted a (2 * n) = true ↔ n = 0 ∨ a + 2 * n ≤ min s.slen.toNat s.params.bufSize := by
  rw [streamAdmitted_iff]
  omega

/-! ## `CLUTLD` (41_palette_pages R155) -/

theorem faultCode_clutld (s : State) :
    faultCode (clutld s) =
      if s.clutn.toNat ≤ s.params.clutMax then
        if s.streamAdmitted s.paloff.toNat (2 * s.clutn.toNat) = true then none else some 5
      else some 9 := by
  simp only [clutld, faultCode_require, decide_eq_true_eq, pure_eq_ok, faultCode_ok, ErrorKind.code]

/-- The count of the loaded entries as a register's value. -/
theorem loadClut_of_length {es : List Color16} {n : Word} (h : es.length = n.toNat) (s : State) :
    s.loadClut es = { s with clut := es, clen := n } := by
  rw [State.loadClut, h, BitVec.ofNat_toNat, BitVec.setWidth_eq]

theorem exec_clutld_of_admitted {s : State} (hmax : s.clutn.toNat ≤ s.params.clutMax)
    (hfits : s.streamAdmitted s.paloff.toNat (2 * s.clutn.toNat) = true) :
    exec .clutld s =
      .next { s with
        clut := s.bufEntries s.paloff.toNat s.clutn.toNat
        clen := s.clutn, cache := [], qcnt := 0, status := 0 } := by
  rw [exec, execClutld, clutld_eq_ok.2 ⟨hmax, hfits, rfl⟩,
    loadClut_of_length (bufEntries_length _ _ _)]
  rfl

/-! ## The statements -/

/-- Settles O30: the two checks in their order; the loaded entry `k` is the two-byte number at
`PALOFF + 2k`. -/
theorem clutldCopiesTheEntries : Obligations.ClutldCopiesTheEntries := by
  refine ⟨rfl, fun s => ⟨?capacity, ?truncated, ?loaded⟩⟩
  case capacity =>
    intro hmax
    exact conclude_of_faultCode ((faultCode_clutld s).trans (if_neg (Nat.not_le.2 hmax)))
  case truncated =>
    intro hmax hfits
    have hcode : faultCode (clutld s) = some 5 := by
      rw [faultCode_clutld, if_pos hmax, if_neg (mt streamAdmitted_entries.1 hfits)]
    exact conclude_of_faultCode hcode
  case loaded =>
    intro hmax hfits
    refine ⟨_, exec_clutld_of_admitted hmax (streamAdmitted_entries.2 hfits), rfl,
      bufEntries_length _ _ _, fun k hk => ?_⟩
    rw [← bufEntry_toNat, State.clutEntry, bufEntries_getElem?, if_pos hk, Option.getD_some]

/-- Settles O31: `SPLIT` raises what `checkPages` raises, and has no check of its own. -/
theorem splitCountsThePages : Obligations.SplitCountsThePages := by
  refine ⟨rfl, fun s => ⟨?fault, ?counted⟩⟩
  case fault =>
    intro c hc
    exact conclude_of_faultCode (faultCode_bind_of_some (pagesFault_eq s ▸ hc) _)
  case counted =>
    intro hnone
    obtain ⟨f, hf, hsize⟩ := checkPages_of_pagesFault_none hnone
    rw [exec, execSplit, split_eq_ok.2 ⟨f, hf, rfl⟩, hsize]
    rfl

/-- Settles O32: `PAGERD` raises what `checkPage` raises, then checks the index against the page size of
the format the page checks found. -/
theorem pagerdReadsTheEntry : Obligations.PagerdReadsTheEntry := by
  refine ⟨rfl, fun s => ⟨?fault, ?range, ?read⟩⟩
  case fault =>
    intro c hc
    exact conclude_of_faultCode (faultCode_bind_of_some (pageFault_eq s ▸ hc) _)
  case range =>
    intro hnone hindex
    obtain ⟨f, hf, hsize⟩ := checkPage_of_pageFault_none hnone
    rw [hsize] at hindex
    have hcode : faultCode (pagerd s) = some 7 := by
      rw [pagerd, hf, ok_bind, faultCode_require,
        if_neg (mt of_decide_eq_true (Nat.not_lt.2 hindex)), ErrorKind.code]
    exact conclude_of_faultCode hcode
  case read =>
    intro hnone hindex
    obtain ⟨f, hf, hsize⟩ := checkPage_of_pageFault_none hnone
    rw [hsize] at hindex
    rw [exec, execPagerd, pagerd_eq_ok.2 ⟨f, hf, hindex, rfl⟩, hsize]
    rfl

end Sys2Proof.Machine
end

section
/-!
PROOFS. The quantizer's `QCLR` (43_quantizer R223): the exact next state from every state.
-/

namespace Sys2Proof.Machine

/-- `QCLR` has no check, so it completes from every state. -/
theorem exec_qclr (s : State) : exec .qclr s = .next (complete s.clearCache) := by
  rw [exec, execQclr, conclude_ok]

theorem complete_clearCache (s : State) :
    complete s.clearCache = { s with cache := [], qcnt := 0, status := 0 } := rfl

/-- Settles O52: the next state is `complete s.clearCache`; completing writes `STATUS` only, so its cache
cells are those of the cleared cache. -/
theorem qclrEmptiesTheCache : Obligations.QclrEmptiesTheCache := by
  refine ⟨rfl, fun s => ⟨complete s.clearCache, exec_qclr s, ?frame, ?cells⟩⟩
  case frame => rw [complete_cache, clearCache_cache, complete_clearCache]
  case cells =>
    intro k
    rw [complete_cacheCell, cacheCell_clearCache]

end Sys2Proof.Machine
end

section
/-!
PROOFS. The structure sequencer and control (44_structure_and_control R253, R256 to R260): `NOP`, `GEOM`,
and the faults of `PARSE`, each as the fault its checks raise first and the next state where they raise
none.
-/

namespace Sys2Proof.Machine

open Sys2Proof.Safety

/-! ## `GEOM` (44_structure_and_control R256, R258) -/

theorem storedWidth_eq (s : State) : s.storedWidth = s.pixrectWH.toNat % 2 ^ 16 := by
  simp [State.storedWidth]

theorem storedWidth_lt (s : State) : s.storedWidth < 2 ^ 16 := BitVec.isLt _

/-- Format codes 0 to 3 are the ones with a plane layout (30_encoding R106). -/
theorem exists_plane_of_formatNumber_le {s : State} (h : formatNumber s ≤ 3) :
    ∃ f, s.format = .plane f := by
  cases hf : s.format with
  | plane f => exact ⟨f, rfl⟩
  | mixed =>
    have := format_eq_mixed.1 hf
    omega
  | invalid =>
    have := format_eq_invalid.1 hf
    omega

theorem exec_geom_of_invalid {s : State} (h : s.format = .invalid) :
    exec .geom s = .next (takeFault .invalidFormat s) := by
  rw [exec, execGeom, geom, h, planeFormatOf, error_bind, conclude_error]

theorem exec_geom_of_mixed {s : State} (h : s.format = .mixed) :
    exec .geom s = .next (takeFault .unsupportedFormat s) := by
  rw [exec, execGeom, geom, h, planeFormatOf, error_bind, conclude_error]

theorem exec_geom_of_plane {s : State} {f : PlaneFormat} (h : s.format = .plane f) :
    exec .geom s = .next (complete (s.setTrueWidth (f.correctWidth s.storedWidth))) := by
  rw [exec, execGeom, geom_eq_ok.2 ⟨f, h, rfl⟩, conclude_ok]

/-- `TRUEW` holds the corrected width itself: 18 bits are enough for it, so the register's 32 are. -/
theorem trueWidthWord_toNat {s : State} {f : PlaneFormat} (h : s.format = .plane f) :
    (BitVec.ofNat 32 (f.correctWidth s.storedWidth)).toNat =
      widthNumber (formatNumber s) (s.pixrectWH.toNat % 2 ^ 16) := by
  have hfits : f.correctWidth s.storedWidth < 2 ^ 32 :=
    (correctWidth_lt f (storedWidth_lt s)).trans (by decide)
  rw [BitVec.toNat_ofNat, Nat.mod_eq_of_lt hfits, format_eq_plane.1 h, widthNumber_plane,
    storedWidth_eq]

/-! ## `PARSE` (44_structure_and_control R253) -/

theorem exec_parse_of_fault {s : State} {c : Nat} (h : parseFault s = some c) :
    exec .parse s = .next { s with status := BitVec.ofNat 32 c } :=
  conclude_of_faultCode (parseFault_eq s ▸ h)

/-- Where no check fails, the walk commits, and its last write is the completed `STATUS`. -/
theorem exec_parse_of_no_fault {s : State} (h : parseFault s = none) :
    ∃ u, exec .parse s = .next (complete u) := by
  obtain ⟨t, ht⟩ := faultCode_eq_none.1 (parseFault_eq s ▸ h)
  obtain ⟨f, c, -, -, -, -, -, -, -, rfl⟩ := parse_eq_ok.1 ht
  exact ⟨_, by rw [exec, execParse, ht, conclude_ok]⟩

/-! ## `NOP` (44_structure_and_control R260) -/

/-- `NOP` has no check to fail and no register of its own to write. -/
theorem exec_nop (s : State) : exec .nop s = .next (complete s) := by
  rw [exec, execNop, conclude_ok]

/-! ## The statements -/

/-- Settles O38: the format code is invalid, `Mixed` or a plane format; only the last is computed with. -/
theorem geomWritesTheCorrectedWidth : Obligations.GeomWritesTheCorrectedWidth := by
  refine ⟨rfl, fun s => ⟨?invalid, ?mixed, ?plane⟩⟩
  case invalid =>
    intro hf
    exact exec_geom_of_invalid (format_eq_invalid.2 hf)
  case mixed =>
    intro hf
    exact exec_geom_of_mixed (format_eq_mixed.2 hf)
  case plane =>
    intro hf
    obtain ⟨f, hformat⟩ := exists_plane_of_formatNumber_le hf
    exact ⟨_, exec_geom_of_plane hformat, trueWidthWord_toNat hformat⟩

/-- Settles O39: the table of the twelve checks gives the code the walk raises first, and none where the
walk reaches its commit. -/
theorem parseFaultsInWalkOrder : Obligations.ParseFaultsInWalkOrder := by
  refine fun s => ⟨fun c hc => exec_parse_of_fault hc, fun hnone => ?_⟩
  obtain ⟨u, hu⟩ := exec_parse_of_no_fault hnone
  exact ⟨_, hu, statusErr_complete u⟩

/-- Settles O37: the all-zero word is `NOP`'s encoding, so the step that issues it runs `NOP` on the state
with the word in `CMD`. -/
theorem nopOnlyClearsStatus : Obligations.NopOnlyClearsStatus := by
  refine ⟨rfl, fun s => ⟨exec_nop s, fun rest hpending => ?_⟩⟩
  obtain ⟨hcommand, -⟩ := everyCommandWordHasOneOutcome s rest 0x00 hpending
  rw [hcommand .nop rfl, exec_nop]
  rfl

end Sys2Proof.Machine
end

section
/-!
PROOFS. Fault entry, over every command (60_exceptions R286): a command ends in a next state, with one of
the ten command faults taken on the state it started in, or with a completed `STATUS`.
-/

namespace Sys2Proof.Machine

/-! ## The two endings of a command -/

/-- No command stops the model: four have no check and complete from every state, and each of the others
ends by `conclude`. -/
theorem exec_next (i : Instr) (s : State) : ∃ t, exec i s = .next t := by
  cases i with
  | nop => exact ⟨_, exec_nop s⟩
  | dec16 => exact ⟨_, exec_dec16 s⟩
  | enc16 => exact ⟨_, exec_enc16 s⟩
  | qclr => exact ⟨_, exec_qclr s⟩
  | _ => exact conclude_next s _

/-- `IllegalCommand` alone has the code 11 (60_exceptions R280). -/
theorem code_le_ten {e : ErrorKind} (h : e ≠ .illegalCommand) : e.code ≤ 10 := by
  cases e with
  | illegalCommand => exact absurd rfl h
  | _ => decide

/-- A completed `STATUS` has no error code, whether the cache was hit or not (10_state R25). -/
theorem statusErr_statusCompleted (s : State) (hit : Bool) :
    (s.setStatus (statusCompleted hit)).statusErr = 0 := by
  rw [State.statusErr, setStatus_status]
  cases hit <;> decide

/-- A command takes one of ten faults with no other effect, or leaves `ERR` 0: its last write is then the
completed `STATUS`, with a `HIT` to report for `QMATCH` only. -/
theorem exec_faults_or_completes {i : Instr} {s t : State} (h : exec i s = .next t) :
    (∃ e, e ≠ ErrorKind.illegalCommand ∧ t = takeFault e s) ∨ t.statusErr = 0 := by
  rcases exec_cases h with hfault | ⟨-, rfl⟩ | ⟨-, v, rfl⟩ | ⟨-, hclutld⟩ | ⟨-, hclutst⟩ | ⟨-, hparse⟩ |
    ⟨-, hgeom⟩ | ⟨-, hunpack⟩ | ⟨-, hpack⟩ | ⟨-, rfl⟩ | ⟨-, hqmatch⟩
  · exact .inl hfault
  · exact .inr (statusErr_complete _)
  · exact .inr (statusErr_complete _)
  · obtain ⟨-, -, rfl⟩ := clutld_eq_ok.1 hclutld
    exact .inr (statusErr_complete _)
  · obtain ⟨-, rfl⟩ := clutst_eq_ok.1 hclutst
    exact .inr (statusErr_complete _)
  · obtain ⟨f, c, -, -, -, -, -, -, -, rfl⟩ := parse_eq_ok.1 hparse
    exact .inr (statusErr_complete _)
  · obtain ⟨f, -, rfl⟩ := geom_eq_ok.1 hgeom
    exact .inr (statusErr_complete _)
  · obtain ⟨f, -, -, -, -, -, rfl⟩ := unpack_eq_ok.1 hunpack
    exact .inr (statusErr_complete _)
  · obtain ⟨f, -, -, -, -, -, -, rfl⟩ := pack_eq_ok.1 hpack
    exact .inr (statusErr_complete _)
  · exact .inr (statusErr_complete _)
  · obtain ⟨f, -, rfl⟩ := qmatch_eq_ok.1 hqmatch
    exact .inr (statusErr_statusCompleted _ _)

/-! ## The statement -/

/-- Settles O15: every command answers a next state, and where its `ERR` is not 0 that state is
`takeFault e s`, which writes `STATUS` only, for one of the ten faults a command can raise. -/
theorem faultingCommandHasNoOtherEffect : Obligations.FaultingCommandHasNoOtherEffect := by
  intro i s
  obtain ⟨t, ht⟩ := exec_next i s
  refine ⟨t, ht, ?_⟩
  rcases exec_faults_or_completes ht with ⟨e, he, rfl⟩ | hcompleted
  · exact .inr ⟨e, takeFault_eq e s, statusHit_takeFault e s, statusErr_takeFault e s,
      (code_pos e).1, code_le_ten he⟩
  · exact .inl hcompleted

end Sys2Proof.Machine
end

section
/-!
PROOFS. The command words again (30_encoding R100 to R102): which field a refused word is refused for, which
words are well formed, and the steps that issue a command.
-/

namespace Sys2Proof

/-! ## The two fields of a word as numbers -/

/-- Bits 31:8 are what is left of the word after division by 256. -/
theorem zeroField_iff {w : Word} : w.extractLsb' 8 24 = 0 ↔ w.toNat / 256 = 0 := by
  have hfits : w.toNat / 256 < 2 ^ 24 := by omega
  rw [← BitVec.toNat_inj, BitVec.extractLsb'_toNat, Nat.shiftRight_eq_div_pow,
    Nat.mod_eq_of_lt hfits]
  rfl

theorem opcodeField_toNat (w : Word) : (w.extractLsb' 0 8).toNat = w.toNat % 256 := by
  simp [BitVec.extractLsb'_toNat]

/-! ## Refused words -/

/-- A word whose `ZERO` field is 0 is decoded by its opcode. -/
theorem decode_of_zeroField {w : Word} (h : w.toNat / 256 = 0) :
    decode w = decodeOpcode (w.extractLsb' 0 8) := by
  rw [decode, if_pos (zeroField_iff.2 h)]

/-- The opcode map refuses for the opcode only. -/
theorem decodeOpcode_ne_zeroField (opc : Byte) : decodeOpcode opc ≠ .error .zeroField := by
  simp [decodeOpcode, ite_eq_iff]

theorem decode_eq_zeroField {w : Word} : decode w = .error .zeroField ↔ w.toNat / 256 ≠ 0 := by
  constructor
  · intro hrefused hzero
    exact decodeOpcode_ne_zeroField _ (decode_of_zeroField hzero ▸ hrefused)
  · intro hzero
    rw [decode, if_neg (mt zeroField_iff.1 hzero)]

/-- A word refused for the opcode is one that is neither refused for `ZERO` nor decoded. -/
theorem decode_eq_opcode {w : Word} :
    decode w = .error .opcode ↔ w.toNat / 256 = 0 ∧ ∀ i, w ≠ encode i := by
  simp only [ne_eq, ← decode_eq_ok]
  cases hdecode : decode w with
  | ok i => simp
  | error e =>
    cases e with
    | zeroField => simp [decode_eq_zeroField.1 hdecode]
    | opcode =>
      have hzero : w.toNat / 256 = 0 := not_not.1 (mt decode_eq_zeroField.2 (by simp [hdecode]))
      exact ⟨fun _ => ⟨hzero, by simp⟩, fun _ => rfl⟩

/-! ## Well-formed words -/

/-- The commands in the order of the opcode map (30_encoding R102). -/
def commands : List Instr :=
  [.nop, .dec16, .enc16, .clutld, .split, .pagerd, .clutst, .parse, .geom, .unpack, .pack, .qclr,
    .qmatch]

theorem mem_commands (i : Instr) : i ∈ commands := by
  cases i <;> decide

/-- The check of the opcode asks for one of the opcodes of the map. -/
theorem opcodeOk_iff {w : Word} :
    CommandWord.opcodeOk w = true ↔ ∃ i, w.extractLsb' 0 8 = opcodeOf i := by
  change (commands.map fun i => (opcodeOf i).toNat).contains (w.toNat % 256) = true ↔ _
  rw [List.contains_iff_mem, List.mem_map, ← opcodeField_toNat]
  simp only [mem_commands, true_and, BitVec.toNat_inj, @eq_comm _ (opcodeOf _)]

theorem wellFormed_iff {w : Word} : CommandWord.wellFormed w = true ↔ ∃ i, decode w = .ok i := by
  have hopcode : ∀ i, decodeOpcode (w.extractLsb' 0 8) = .ok i ↔ w.extractLsb' 0 8 = opcodeOf i :=
    fun i => ⟨eq_opcodeOf_of_decodeOpcode, fun h => h ▸ decodeOpcode_opcodeOf i⟩
  rw [CommandWord.wellFormed, Bool.and_eq_true, opcodeOk_iff, CommandWord.zeroFieldOk,
    decide_eq_true_eq, decode]
  split_ifs with hzero
  · simp only [hzero, true_and, hopcode]
  · simp only [hzero, false_and, exists_false]

/-! ## The statements -/

/-- Settles O3: the four parts are `decode_eq_ok`, the two refusals, and `wellFormed_iff`. -/
theorem decodeAcceptsExactlyTheEncodings : Obligations.DecodeAcceptsExactlyTheEncodings :=
  fun _ => ⟨fun _ => decode_eq_ok, decode_eq_zeroField, decode_eq_opcode, wellFormed_iff⟩

/-- Settles O1: each written-out word is the encoding of its row's command. -/
theorem opcodeMapWordsDecode : Obligations.OpcodeMapWordsDecode :=
  ⟨decode_encode .nop, decode_encode .dec16, decode_encode .enc16, decode_encode .clutld,
    decode_encode .split, decode_encode .pagerd, decode_encode .clutst, decode_encode .parse,
    decode_encode .geom, decode_encode .unpack, decode_encode .pack, decode_encode .qclr,
    decode_encode .qmatch⟩

/-- Settles O2. -/
theorem decodeInvertsEncode : Obligations.DecodeInvertsEncode :=
  fun i _ => ⟨decode_encode i, wellFormed_iff.2 ⟨i, decode_encode i⟩⟩

end Sys2Proof

namespace Sys2Proof.Machine

/-! ## Issuing a command -/

/-- A 32-bit word stands in an opcode-table row of 32 bits as it is. -/
theorem tableWord_toNat (w : Word) : tableWord 32 w.toNat = some w := by
  rw [tableWord, Nat.mod_eq_of_lt w.isLt, if_pos w.isLt, BitVec.ofNat_toNat, BitVec.setWidth_eq]

theorem withFetchWord_toNat (s : State) (w : Word) :
    s.withFetchWord 32 w.toNat = s.withPending (.writeReg 0x00 w :: s.pending) := by
  rw [State.withFetchWord, State.withCommand, tableWord_toNat]

/-- Settles O4: the word that decodes is the command's encoding, so the step issues that command. -/
theorem stepRunsTheDecodedCommand : Obligations.StepRunsTheDecodedCommand := by
  intro s rest w i hpending hdecode _
  exact (everyCommandWordHasOneOutcome s rest w hpending).1 i (decode_eq_ok.1 hdecode)

/-- Settles O6: the placed word is the oldest pending write to `CMD`. -/
theorem placedCommandRunsNext : Obligations.PlacedCommandRunsNext := by
  intro s i
  rw [withFetchWord_toNat]
  exact (everyCommandWordHasOneOutcome _ s.pending (encode i) rfl).1 i rfl

end Sys2Proof.Machine
end

section
/-!
PROOFS. The host port (20_memory R73 to R83, 30_encoding R115): the step that performs each kind of host
access, what a register write leaves as it was, and where the model stops.
-/

namespace Sys2Proof.Machine

open Sys2Proof.Safety

/-! ## Register accesses -/

theorem step_readReg {s : State} {rest : List HostAction} {r : RegName}
    (h : s.pending = .readReg r.offset :: rest) :
    step s = .next ((s.withPending rest).addReply (.register (s.readReg r))) := by
  rw [step, advance_action h, hostAct, atRegister_offset, State.readOffset, ofOffset_offset]
  rfl

theorem storeReg_of_readOnly {r : RegName} (hr : hostReadOnly r = true) (s : State) (v : Word) :
    s.storeReg r v = s := by
  cases r
  case status | res | clen | qcnt | pagecnt | ptrans | truebytesLo | truebytesHi => rfl
  all_goals cases hr

/-- A register write stores into its own register; the cache clearing beside it writes `QCNT`. -/
theorem readReg_storeReg_of_ne {r q : RegName} (hne : q ≠ r) (hview : isView q = false)
    (hqcnt : q ≠ .qcnt) (s : State) (v : Word) : (s.storeReg r v).readReg q = s.readReg q := by
  cases q
  case pagecnt | ptrans | truebytesLo | truebytesHi => cases hview
  case qcnt => exact absurd rfl hqcnt
  all_goals
    cases r <;> first
      | rfl
      | exact absurd rfl hne

theorem storeReg_clears {r : RegName} (hr : clearsCache r = true) (s : State) (v : Word) :
    (s.storeReg r v).cache = [] ∧ (s.storeReg r v).qcnt = 0 := by
  cases r
  case ctrl | mode | page => exact ⟨rfl, rfl⟩
  all_goals cases hr

theorem storeReg_keepsCache {r : RegName} (hr : clearsCache r = false) (s : State) (v : Word) :
    (s.storeReg r v).cache = s.cache ∧ (s.storeReg r v).qcnt = s.qcnt := by
  cases r
  case ctrl | mode | page => cases hr
  all_goals exact ⟨rfl, rfl⟩

section StoreReg

variable (s : State) (r : RegName) (v : Word)

@[simp] theorem storeReg_params : (s.storeReg r v).params = s.params := by cases r <;> rfl
@[simp] theorem storeReg_pending : (s.storeReg r v).pending = s.pending := by cases r <;> rfl
@[simp] theorem storeReg_replies : (s.storeReg r v).replies = s.replies := by cases r <;> rfl
@[simp] theorem storeReg_epoch : (s.storeReg r v).epoch = s.epoch := by cases r <;> rfl
@[simp] theorem storeReg_buf : (s.storeReg r v).buf = s.buf := by cases r <;> rfl
@[simp] theorem storeReg_img : (s.storeReg r v).img = s.img := by cases r <;> rfl
@[simp] theorem storeReg_clut : (s.storeReg r v).clut = s.clut := by cases r <;> rfl
@[simp] theorem storeReg_clen : (s.storeReg r v).clen = s.clen := by cases r <;> rfl

end StoreReg

theorem cacheCell_of_cache_nil {s : State} (h : s.cache = []) (k : Color16) :
    s.cacheCell k = none := by
  rw [State.cacheCell, h, lookup_nil]

/-! ## Memory accesses -/

theorem bufAdmitted_of_le {s : State} {a n : Nat} (h : a + n ≤ s.params.bufSize) :
    s.bufAdmitted a n = true := bufAdmitted_iff.2 (by omega)

theorem imgAdmitted_of_le {s : State} {i n : Nat} (h : i + n ≤ s.params.imgSize) :
    s.imgAdmitted i n = true := imgAdmitted_iff.2 (by omega)

section MemoryStep

variable {s : State} {rest : List HostAction}

theorem step_writeBuf {a : Nat} {bs : List Byte} (h : s.pending = .writeBuf a bs :: rest)
    (hfits : a + bs.length ≤ s.params.bufSize) :
    step s = .next ((s.withPending rest).writeBuf a bs) := by
  rw [step, advance_action h, hostAct, if_pos (bufAdmitted_of_le (s := s.withPending rest) hfits)]

theorem step_readBuf {a n : Nat} (h : s.pending = .readBuf a n :: rest)
    (hfits : a + n ≤ s.params.bufSize) :
    step s = .next { s with pending := rest, replies := .bytes (s.bufBytes a n) :: s.replies } := by
  rw [step, advance_action h, hostAct,
    if_pos (bufAdmitted_of_le (s := s.withPending rest) hfits),
    bufBytes_congr (s := s.withPending rest) (t := s) fun _ _ => rfl]
  rfl

theorem step_writeImg {i : Nat} {ps : List Word} (h : s.pending = .writeImg i ps :: rest)
    (hfits : i + ps.length ≤ s.params.imgSize) :
    step s = .next ((s.withPending rest).writeImg i ps) := by
  rw [step, advance_action h, hostAct, if_pos (imgAdmitted_of_le (s := s.withPending rest) hfits)]

theorem imgCells_congr {t : State} {i n : Nat}
    (h : ∀ k < n, s.imgCell (i + k) = t.imgCell (i + k)) : s.imgCells i n = t.imgCells i n := by
  apply List.ext_getElem?
  intro k
  rw [imgCells_getElem?, imgCells_getElem?]
  split_ifs with hk
  · rw [h k hk]
  · rfl

theorem step_readImg {i n : Nat} (h : s.pending = .readImg i n :: rest)
    (hfits : i + n ≤ s.params.imgSize) :
    step s = .next { s with pending := rest, replies := .pixels (s.imgCells i n) :: s.replies } := by
  rw [step, advance_action h, hostAct,
    if_pos (imgAdmitted_of_le (s := s.withPending rest) hfits),
    imgCells_congr (s := s.withPending rest) (t := s) fun _ _ => rfl]
  rfl

end MemoryStep

/-- Reading a written run back gives the run (20_memory R83). -/
theorem bufBytes_writeBuf (s : State) (a : Nat) (bs : List Byte) :
    (s.writeBuf a bs).bufBytes a bs.length = bs := by
  apply List.ext_getElem (bufBytes_length _ _ _)
  intro k _ hk
  rw [List.getElem_eq_iff, bufBytes_getElem?, if_pos hk, bufByte_writeBuf_inside s hk]

theorem imgCells_writeImg (s : State) (i : Nat) (ps : List Word) :
    (s.writeImg i ps).imgCells i ps.length = ps := by
  apply List.ext_getElem (imgCells_length _ _ _)
  intro k _ hk
  rw [List.getElem_eq_iff, imgCells_getElem?, if_pos hk, imgCell_writeImg_inside s hk]

/-! ## Where the model stops (log entries 11 and 12) -/

theorem issue_next (w : Word) (s : State) : ∃ t, issue w s = .next t := by
  unfold issue
  split
  · exact exec_next _ _
  · exact ⟨_, rfl⟩

theorem hostWriteReg_next (o : Nat) (v : Word) (s : State) : ∃ t, hostWriteReg o v s = .next t := by
  unfold hostWriteReg
  split
  · exact issue_next v s
  · exact ⟨_, rfl⟩
  · exact ⟨_, rfl⟩

theorem atRegister_refuses {o : Nat} (h : ¬(o % 4 = 0 ∧ o < 0x100))
    (go : Host.Outcome State Fault Refusal) :
    ∃ r, atRegister o go = .refused r ∧
      (r = .misalignedRegisterOffset ∨ r = .beyondRegisterBlock) := by
  unfold atRegister
  split_ifs with haligned hblock
  · exact ⟨_, rfl, .inl rfl⟩
  · exact ⟨_, rfl, .inr rfl⟩
  · omega

theorem hostAct_of_wellFormed {a : HostAction} {s : State} (h : a.wellFormed s.params = true) :
    ∃ t, hostAct a s = .next t := by
  cases a with
  | writeReg o v =>
    simp only [HostAction.wellFormed, Bool.and_eq_true, decide_eq_true_eq] at h
    obtain ⟨haligned, hblock⟩ := h
    rw [hostAct, atRegister_ok haligned hblock]
    exact hostWriteReg_next o v s
  | readReg o =>
    simp only [HostAction.wellFormed, Bool.and_eq_true, decide_eq_true_eq] at h
    obtain ⟨haligned, hblock⟩ := h
    exact ⟨_, atRegister_ok haligned hblock _⟩
  | writeBuf | readBuf | writeImg | readImg => exact ⟨_, if_pos h⟩
  | reset => exact ⟨_, rfl⟩

theorem hostAct_of_malformed {a : HostAction} {s : State} (h : a.wellFormed s.params = false) :
    (∃ r, hostAct a s = .refused r ∧
      (r = .misalignedRegisterOffset ∨ r = .beyondRegisterBlock)) ∨
        ∃ f, hostAct a s = .fault f := by
  cases a with
  | writeReg | readReg =>
    refine .inl (atRegister_refuses ?_ _)
    simpa [HostAction.wellFormed] using h
  | writeBuf | readBuf | writeImg | readImg => exact .inr ⟨_, if_neg (Bool.eq_false_iff.1 h)⟩
  | reset => cases h

/-! ## The reset event (70_reset_and_hazards R320) -/

/-- Without CLUT entries there is no page to count. -/
theorem readReg_pagecnt_of_clen_zero {s : State} (h : s.clen = 0) : s.readReg .pagecnt = 0 := by
  obtain ⟨hcount, -⟩ := pageViewsFollowTheClut s
  apply BitVec.eq_of_toNat_eq
  simpa [h] using hcount

/-- Without CLUT entries the active page does not exist. -/
theorem readReg_ptrans_of_clen_zero {s : State} (h : s.clen = 0) : s.readReg .ptrans = 0 := by
  obtain ⟨-, hnoPage, -⟩ := pageViewsFollowTheClut s
  refine hnoPage ?_
  unfold pageFault
  split <;> simp [h]

theorem trueBytes_of_truew_zero {s : State} (h : s.truew = 0) : s.trueBytes = 0 := by
  simp [trueBytes_eq, h, sizeNumber]

/-- Every register and view of the state after reset reads 0 (10_state R56). -/
theorem readReg_resetEvent (s : State) (r : RegName) : (resetEvent s).readReg r = 0 := by
  have htrue : (resetEvent s).trueBytes = 0 := trueBytes_of_truew_zero rfl
  cases r
  case pagecnt => exact readReg_pagecnt_of_clen_zero rfl
  case ptrans => exact readReg_ptrans_of_clen_zero rfl
  case truebytesLo => rw [State.readReg, htrue]; rfl
  case truebytesHi => rw [State.readReg, htrue]; rfl
  all_goals rfl

theorem step_reset {s : State} {rest : List HostAction} (h : s.pending = .reset :: rest) :
    step s = .next (resetEvent (s.withPending rest)) := by
  rw [step, advance_action h, hostAct]

/-! ## The statements -/

/-- Settles O8: the step stores into the one register; what a store leaves is said per part of the
state. -/
theorem hostRegisterWriteStoresUnderItsMask : Obligations.HostRegisterWriteStoresUnderItsMask := by
  intro s rest r v hpending hcmd
  refine ⟨_, step_writeReg hpending hcmd, fun hreadOnly => storeReg_of_readOnly hreadOnly _ v,
    fun hwritable => ⟨readReg_storeReg hwritable _ v, ?others, ?clears, ?keeps, ?frame⟩⟩
  case others => exact fun q hne hview hqcnt => readReg_storeReg_of_ne hne hview hqcnt _ v
  case clears =>
    intro hclears
    obtain ⟨hcache, hqcnt⟩ := storeReg_clears hclears (s.withPending rest) v
    exact ⟨cacheCell_of_cache_nil hcache, hqcnt⟩
  case keeps => exact fun hkeeps => storeReg_keepsCache hkeeps _ v
  case frame => simp

/-- Settles O11, by the laws of a written run of cells. -/
theorem hostMemoryWriteThenReadGivesTheValues :
    Obligations.HostMemoryWriteThenReadGivesTheValues := by
  refine ⟨?buf, ?img⟩
  case buf =>
    intro s rest a bs hpending hfits
    refine ⟨_, step_writeBuf hpending hfits, rfl, fun x hx => ?_, fun k hk => ?_, ?_⟩
    · exact bufByte_writeBuf_outside _ hx
    · exact bufByte_writeBuf_inside _ hk
    · have hread := step_readBuf (s := (s.withPending _).writeBuf a bs) (rest := rest) rfl hfits
      rw [hread, bufBytes_writeBuf]
  case img =>
    intro s rest i ps hpending hfits
    refine ⟨_, step_writeImg hpending hfits, rfl, fun x hx => ?_, fun k hk => ?_, ?_⟩
    · exact imgCell_writeImg_outside _ hx
    · exact imgCell_writeImg_inside _ hk
    · have hread := step_readImg (s := (s.withPending _).writeImg i ps) (rest := rest) rfl hfits
      rw [hread, imgCells_writeImg]

/-- Settles O12: a well-formed access passes the very check `hostAct` makes, any other fails it. -/
theorem onlyUndefinedHostAccessesStop : Obligations.OnlyUndefinedHostAccessesStop := by
  intro s a rest hpending
  rw [step, advance_action hpending]
  exact ⟨hostAct_of_wellFormed (s := s.withPending rest),
    hostAct_of_malformed (s := s.withPending rest)⟩

/-- Settles O7. -/
theorem idleStepHoldsAllState : Obligations.IdleStepHoldsAllState :=
  fun _ hidle => advance_idle hidle

/-- Settles O10. -/
theorem hostRegisterReadOnlyAnswers : Obligations.HostRegisterReadOnlyAnswers :=
  fun _ _ _ hpending => step_readReg hpending

/-- Settles O13. -/
theorem resetEventClearsRegistersAndCache : Obligations.ResetEventClearsRegistersAndCache :=
  fun _ _ hpending => ⟨_, step_reset hpending, readReg_resetEvent _,
    cacheCell_of_cache_nil rfl, rfl, rfl, rfl⟩

end Sys2Proof.Machine
end

section
/-!
PROOFS. The Color Codec's round trips (40_color_codec R135, R137): a code decoded and encoded again, and a
pixel encoded and decoded again, in numbers.
-/

namespace Sys2Proof.Machine

/-! ## A code decoded and encoded again -/

/-- What a decoded code encodes to: the code without `STP`, but the code 0, which decodes to a transparent
pixel under `TE`, comes back as `STP` alone. -/
theorem encode16_decode16_toNat (c : Color16) (te : Bool) :
    (encode16 (decode16 c te)).toNat =
      if te = true ∧ c.toNat = 0 then 2 ^ 15 else c.toNat % 2 ^ 15 := by
  rw [encode16_toNat, decode16_r_toNat, decode16_g_toNat, decode16_b_toNat, decode16_a_toNat]
  by_cases hzero : te = true ∧ c.toNat = 0
  · rw [if_pos hzero, if_pos hzero, hzero.2]
    rfl
  · rw [if_neg hzero, if_neg hzero, if_pos rfl]
    omega

/-- The operand `ENC16` takes from a word that holds a pixel is that pixel (30_encoding R105). -/
theorem exec_enc16_word (s : State) (px : RGBA) :
    exec .enc16 { s with opa := px.word } =
      .next { s with opa := px.word, res := (encode16 px).setWidth 32, status := 0 } := by
  rw [exec_enc16]
  simp only [ofWord_word]

/-! ## A pixel encoded and decoded again -/

/-- The three channel fields of a pixel's code, and whether it is the code 0. -/
theorem encode16_fields (px : RGBA) :
    (encode16 px).toNat % 32 = px.r.toNat / 8 ∧ (encode16 px).toNat / 32 % 32 = px.g.toNat / 8 ∧
      (encode16 px).toNat / 1024 % 32 = px.b.toNat / 8 ∧
      ((encode16 px).toNat = 0 ↔
        px.a.toNat = 255 ∧ px.r.toNat < 8 ∧ px.g.toNat < 8 ∧ px.b.toNat < 8) := by
  rw [encode16_toNat]
  by_cases hopaque : px.a.toNat = 255
  · rw [if_pos hopaque]
    omega
  · rw [if_neg hopaque]
    omega

/-! ## The statements -/

/-- Settles O28: `ENC16` reads back the pixel `DEC16` put in `RES`, so the code is decoded and encoded. -/
theorem codeRoundTripLosesOnlyStp : Obligations.CodeRoundTripLosesOnlyStp := by
  intro s
  refine ⟨_, _, exec_dec16 s, exec_enc16_word { s with res := _, status := 0 } _, ?_⟩
  change ((encode16 (decode16 s.opaCode s.te)).setWidth 32).toNat = _
  rw [BitVec.toNat_setWidth_of_le (by decide), encode16_decode16_toNat, opaCode_toNat]
  simp only [te_iff]
  split_ifs <;> omega

/-- Settles O29: each channel is 8 times its field of the code, and alpha depends on whether the code is
0. -/
theorem pixelRoundTripTruncatesChannels : Obligations.PixelRoundTripTruncatesChannels := by
  intro px te
  obtain ⟨hr, hg, hb, hzero⟩ := encode16_fields px
  simp only [decode16_r_toNat, decode16_g_toNat, decode16_b_toNat, decode16_a_toNat, hr, hg, hb,
    hzero]
  refine ⟨?_, ?_, ?_, trivial⟩ <;> omega

end Sys2Proof.Machine
end

section
/-!
PROOFS. The Palette Page Manager's stores (41_palette_pages R160 to R162): `CLUTST` as the bytes it puts at
`DST`, the copy that `CLUTLD` and `CLUTST` make, and the pages joined again.
-/

namespace Sys2Proof.Machine

open Sys2Proof.Safety

/-! ## Raw entries as bytes (30_encoding R109) -/

/-- Bytes written from `d` up, entry `k` of a raw block stands at `d + 2k`. -/
theorem bufByte_writeBuf_entryBytes (s : State) (d : Nat) {cs : List Color16} {k : Nat}
    (hk : k < cs.length) :
    (s.writeBuf d (entryBytes cs)).bufByte (d + 2 * k) = BitVec.ofNat 8 cs[k].toNat ∧
      (s.writeBuf d (entryBytes cs)).bufByte (d + 2 * k + 1) =
        BitVec.ofNat 8 (cs[k].toNat / 256) := by
  obtain ⟨hlow, hhigh⟩ := entryBytes_getElem? cs k
  rw [List.getElem?_eq_getElem hk, Option.map_some] at hlow hhigh
  have hlength := entryBytes_length cs
  constructor
  · rw [bufByte_writeBuf_inside s (by omega), List.getElem_eq_iff, hlow]
  · rw [Nat.add_assoc, bufByte_writeBuf_inside s (by omega), List.getElem_eq_iff, hhigh]

/-- The same in numbers: the low byte, then the high byte. -/
theorem bufByte_writeBuf_entryBytes_toNat (s : State) (d : Nat) {cs : List Color16} {k : Nat}
    (hk : k < cs.length) :
    ((s.writeBuf d (entryBytes cs)).bufByte (d + 2 * k)).toNat = cs[k].toNat % 256 ∧
      ((s.writeBuf d (entryBytes cs)).bufByte (d + 2 * k + 1)).toNat = cs[k].toNat / 256 := by
  obtain ⟨hlow, hhigh⟩ := bufByte_writeBuf_entryBytes s d hk
  rw [hlow, hhigh, BitVec.toNat_ofNat, BitVec.toNat_ofNat]
  omega

theorem clutEntries_getElem (s : State) (i n k : Nat) (hk : k < (s.clutEntries i n).length) :
    (s.clutEntries i n)[k] = s.clutEntry (i + k) := by
  have hn : k < n := by simpa using hk
  rw [List.getElem_eq_iff, clutEntries_getElem?, if_pos hn]

/-! ## `CLUTST` (41_palette_pages R161) -/

theorem bufAdmitted_entries {s : State} {a n : Nat} :
    s.bufAdmitted a (2 * n) = true ↔ n = 0 ∨ a + 2 * n ≤ s.params.bufSize := by
  rw [bufAdmitted_iff]
  omega

/-- The state `CLUTST` leaves where the block fits. -/
def clutstDone (s : State) : State :=
  complete (s.writeBuf s.dst.toNat (entryBytes (s.clutEntries 0 s.clen.toNat)))

theorem exec_clutst_of_fits {s : State}
    (h : s.clen.toNat = 0 ∨ s.dst.toNat + 2 * s.clen.toNat ≤ s.params.bufSize) :
    exec .clutst s = .next (clutstDone s) := by
  rw [exec, execClutst, clutst_eq_ok.2 ⟨bufAdmitted_entries.2 h, rfl⟩, conclude_ok, clutstDone]

theorem exec_clutst_of_not_fits {s : State}
    (h : ¬(s.clen.toNat = 0 ∨ s.dst.toNat + 2 * s.clen.toNat ≤ s.params.bufSize)) :
    exec .clutst s = .next { s with status := 8 } := by
  refine conclude_of_faultCode (c := 8) ?_
  rw [clutst, faultCode_require, if_neg (mt bufAdmitted_entries.1 h), ErrorKind.code]

theorem clutstDone_frame (s : State) :
    clutstDone s = { s with buf := (clutstDone s).buf, status := 0 } := rfl

theorem clutstDone_bufByte_outside (s : State) {a : Nat}
    (h : a < s.dst.toNat ∨ s.dst.toNat + 2 * s.clen.toNat ≤ a) :
    (clutstDone s).bufByte a = s.bufByte a := by
  rw [clutstDone, complete_bufByte, bufByte_writeBuf_outside]
  simpa using h

theorem clutstDone_entry (s : State) {k : Nat} (hk : k < s.clen.toNat) :
    ((clutstDone s).bufByte (s.dst.toNat + 2 * k)).toNat = (s.clutEntry k).toNat % 256 ∧
      ((clutstDone s).bufByte (s.dst.toNat + 2 * k + 1)).toNat = (s.clutEntry k).toNat / 256 := by
  have hlength : k < (s.clutEntries 0 s.clen.toNat).length := by simpa using hk
  have hbytes := bufByte_writeBuf_entryBytes_toNat s s.dst.toNat hlength
  rwa [clutEntries_getElem, Nat.zero_add] at hbytes

/-! ## `CLUTLD`, then `CLUTST` -/

/-- The state `CLUTLD` leaves where its checks pass (41_palette_pages R155). -/
def clutldDone (s : State) : State :=
  { s with
    clut := s.bufEntries s.paloff.toNat s.clutn.toNat
    clen := s.clutn, cache := [], qcnt := 0, status := 0 }

/-- A loaded entry is the two bytes it was loaded from, low byte first. -/
theorem clutldDone_entry (s : State) {k : Nat} (hk : k < s.clutn.toNat) :
    ((clutldDone s).clutEntry k).toNat =
      (s.bufByte (s.paloff.toNat + 2 * k)).toNat +
        256 * (s.bufByte (s.paloff.toNat + 2 * k + 1)).toNat := by
  rw [← bufEntry_toNat, State.clutEntry, clutldDone, bufEntries_getElem?, if_pos hk,
    Option.getD_some]

/-- The two bytes of entry `k` come back as they stood: the store splits what the load put together. -/
theorem clutst_clutld_entry (s : State) {k : Nat} (hk : k < s.clutn.toNat) :
    (clutstDone (clutldDone s)).bufByte (s.dst.toNat + 2 * k) =
        s.bufByte (s.paloff.toNat + 2 * k) ∧
      (clutstDone (clutldDone s)).bufByte (s.dst.toNat + 2 * k + 1) =
        s.bufByte (s.paloff.toNat + 2 * k + 1) := by
  obtain ⟨hlow, hhigh⟩ := clutstDone_entry (clutldDone s) hk
  rw [clutldDone_entry s hk] at hlow hhigh
  have hbyte := (s.bufByte (s.paloff.toNat + 2 * k)).isLt
  constructor <;> apply BitVec.eq_of_toNat_eq
  · exact hlow.trans (by omega)
  · exact hhigh.trans (by omega)

/-- The same for byte `j` of the block. -/
theorem clutst_clutld_byte (s : State) {j : Nat} (hj : j < 2 * s.clutn.toNat) :
    (clutstDone (clutldDone s)).bufByte (s.dst.toNat + j) = s.bufByte (s.paloff.toNat + j) := by
  obtain ⟨hlow, hhigh⟩ := clutst_clutld_entry s (k := j / 2) (by omega)
  obtain heven | hodd : j = 2 * (j / 2) ∨ j = 2 * (j / 2) + 1 := by omega
  · rwa [← heven] at hlow
  · rwa [Nat.add_assoc, Nat.add_assoc, ← hodd] at hhigh

/-! ## The pages joined (41_palette_pages R160, R162) -/

/-- Reading a list of `m * n` items in `m` runs of `n` reads it whole. -/
theorem flatMap_range_range {α : Type} (g : Nat → α) (m n : Nat) :
    (List.range m).flatMap (fun p => (List.range n).map fun i => g (p * n + i)) =
      (List.range (m * n)).map g := by
  induction m with
  | zero => simp
  | succ m ih =>
    rw [List.range_succ, List.flatMap_append, ih, Nat.succ_mul, List.range_add, List.map_append]
    simp

/-- The defined entries in order are the CLUT RAM's list of them. -/
theorem map_clutEntry_range (s : State) :
    (List.range s.clut.length).map s.clutEntry = s.clut := by
  apply List.ext_getElem (by simp)
  intro k _ hk
  simp [State.clutEntry, hk]

/-! ## The statements -/

/-- Settles O33. -/
theorem clutstWritesTheRawBlock : Obligations.ClutstWritesTheRawBlock := by
  refine ⟨rfl, fun s => ⟨exec_clutst_of_not_fits, fun hfits => ?_⟩⟩
  exact ⟨_, exec_clutst_of_fits hfits, clutstDone_frame s, fun k hk => clutstDone_entry s hk,
    fun a ha => clutstDone_bufByte_outside s ha⟩

/-- Settles O34: `CLUTLD` leaves `BUF` and `DST` as they are, and `CLUTST` writes back the entries it
loaded. -/
theorem clutLoadThenStoreCopiesTheBytes : Obligations.ClutLoadThenStoreCopiesTheBytes := by
  intro s n hmax hstream hbuf
  have hload : exec .clutld s = .next (clutldDone s) :=
    exec_clutld_of_admitted hmax (streamAdmitted_entries.2 hstream)
  exact ⟨_, _, ⟨hload, exec_clutst_of_fits hbuf⟩, statusErr_complete _,
    fun j hj => clutst_clutld_byte s hj,
    fun a ha => clutstDone_bufByte_outside (clutldDone s) ha⟩

/-- Settles O35: whole pages are runs of the page size, and together as long as the CLUT. -/
theorem joinedPagesAreTheRawEntries : Obligations.JoinedPagesAreTheRawEntries := by
  intro s f ⟨hcount, _⟩ _ hwhole
  have hpages : s.pageCount f * f.pageSize = s.clut.length := by
    rw [hcount, State.pageCount]
    exact Nat.div_mul_cancel (Nat.dvd_of_mod_eq_zero (wholePages_iff.1 hwhole))
  rw [flatMap_range_range, hpages, map_clutEntry_range]

end Sys2Proof.Machine
end

section
/-!
PROOFS. A `PARSE` that passes its checks (44_structure_and_control R252): the walk's reads as the fields of
the structure at their places in `BUF` (30_encoding R107, R108), and the state it commits.
-/

namespace Sys2Proof.Machine

open Sys2Proof.Safety

/-! ## Reads side by side -/

/-- Four bytes are two halves, the low one first (20_memory R71). -/
theorem bufRead_four (s : State) (a : Nat) :
    s.bufRead a 4 = s.bufRead a 2 + 2 ^ 16 * s.bufRead (a + 2) 2 := by
  simp only [State.bufRead, State.bufBytes, bytesToNat, Nat.add_assoc, Nat.reduceAdd]
  ring

theorem packHalves_toNat {lo hi : Nat} (hlo : lo < 2 ^ 16) (hhi : hi < 2 ^ 16) :
    (packHalves lo hi).toNat = lo + 2 ^ 16 * hi := by
  have hl : (BitVec.ofNat 32 lo).toNat = lo := by
    rw [BitVec.toNat_ofNat, Nat.mod_eq_of_lt (by omega)]
  have hh : (BitVec.ofNat 32 hi).toNat = hi := by
    rw [BitVec.toNat_ofNat, Nat.mod_eq_of_lt (by omega)]
  rw [packHalves, toNat_or_shiftLeft (by omega) (by omega), hl, hh]

/-- Two 16-bit fields of a structure, packed, are the 32-bit number at their place. -/
theorem packHalves_bufRead (s : State) (a : Nat) :
    packHalves (s.bufRead a 2) (s.bufRead (a + 2) 2) = BitVec.ofNat 32 (s.bufRead a 4) := by
  apply BitVec.eq_of_toNat_eq
  rw [packHalves_toNat (bufRead_lt s a 2) (bufRead_lt s (a + 2) 2), ← bufRead_four,
    BitVec.toNat_ofNat]
  exact (Nat.mod_eq_of_lt (bufRead_lt s a 4)).symm

theorem packHalves_zero : packHalves 0 0 = 0 := by decide

/-! ## The structure at `SPOS` -/

/-- The CLUT block of the structure at `SPOS`, by its fields' places. -/
def headerClut (s : State) : ClutBlock :=
  if headerHasClut s then
    { size := headerClutSize s
      rect := { x := s.bufRead (s.spos.toNat + 12) 2, y := s.bufRead (s.spos.toNat + 14) 2,
                w := s.bufRead (s.spos.toNat + 16) 2, h := s.bufRead (s.spos.toNat + 18) 2 }
      paloff := s.spos.toNat + 20
      entries := s.bufEntries (s.spos.toNat + 20) (headerEntries s)
      resume := s.spos.toNat + 20 + 2 * headerEntries s }
  else noClut (s.spos.toNat + 8)

/-- The walk's step 3, where it passes, gives that block. -/
theorem clutBlock_header {s : State} {f : PlaneFormat} {c : ClutBlock}
    (h : s.clutBlock (headerHasClut s) f (s.spos.toNat + 8) = .ok c) : c = headerClut s := by
  rcases clutBlock_eq_ok.1 h with ⟨hnone, rfl⟩ | ⟨hclut, -, -, -, -, -, rfl⟩
  · simp [headerClut, hnone]
  · simp [headerClut, hclut, headerEntries, headerClutSize, Nat.add_assoc]

theorem headerClut_resume (s : State) : (headerClut s).resume = headerPixelBlock s := by
  unfold headerClut headerPixelBlock
  split_ifs <;> rfl

theorem headerClut_entries (s : State) :
    (headerClut s).entries = s.bufEntries (s.spos.toNat + 20) (headerEntries s) := by
  unfold headerClut
  split_ifs with hclut
  · rfl
  · rw [headerEntries, if_neg hclut]
    rfl

/-- The registers of the CLUT block: its fields, or 0 where the structure has none. -/
theorem headerClut_registers (s : State) :
    BitVec.ofNat 32 (headerClut s).size =
        (if headerHasClut s then BitVec.ofNat 32 (headerClutSize s) else 0) ∧
      packHalves (headerClut s).rect.x (headerClut s).rect.y =
        (if headerHasClut s then BitVec.ofNat 32 (s.bufRead (s.spos.toNat + 12) 4) else 0) ∧
      packHalves (headerClut s).rect.w (headerClut s).rect.h =
        (if headerHasClut s then BitVec.ofNat 32 (s.bufRead (s.spos.toNat + 16) 4) else 0) ∧
      BitVec.ofNat 32 (headerClut s).paloff =
        (if headerHasClut s then BitVec.ofNat 32 (s.spos.toNat + 20) else 0) := by
  unfold headerClut
  split_ifs
  · exact ⟨rfl, packHalves_bufRead s _, packHalves_bufRead s _, rfl⟩
  · exact ⟨rfl, packHalves_zero, packHalves_zero, rfl⟩

/-! ## What `PARSE` commits -/

/-- The state a `PARSE` that passes its checks leaves. -/
def parseDone (s : State) : State :=
  complete (s.commitParse (headerMode s % 16) (headerClut s) (s.bufRead (headerPixelBlock s) 4)
    { x := s.bufRead (headerPixelBlock s + 4) 2, y := s.bufRead (headerPixelBlock s + 6) 2,
      w := s.bufRead (headerPixelBlock s + 8) 2, h := s.bufRead (headerPixelBlock s + 10) 2 }
    (headerWidth s) (headerPixelBlock s + 12))

theorem parse_eq_parseDone {s t : State} (h : parse s = .ok t) : t = parseDone s := by
  obtain ⟨f, c, -, -, -, hformat, hclut, -, -, rfl⟩ := parse_eq_ok.1 h
  obtain rfl := clutBlock_header hclut
  have hwidth : f.correctWidth (s.bufRead (headerPixelBlock s + 8) 2) = headerWidth s := by
    rw [headerWidth, headerMode, ofCode_plane_iff.1 hformat, widthNumber_plane]
  rw [headerClut_resume, hwidth]
  rfl

theorem exec_parse_of_passed {s : State} (h : parseFault s = none) :
    exec .parse s = .next (parseDone s) := by
  obtain ⟨t, ht⟩ := faultCode_eq_none.1 (parseFault_eq s ▸ h)
  rw [exec, execParse, ht, conclude_ok, parse_eq_parseDone ht]

theorem parseDone_clut (s : State) :
    (parseDone s).clut = s.bufEntries (s.spos.toNat + 20) (headerEntries s) :=
  headerClut_entries s

theorem parseDone_frame (s : State) :
    parseDone s = { s with
      mode := BitVec.ofNat 32 (headerMode s % 16)
      clutsize := if headerHasClut s then BitVec.ofNat 32 (headerClutSize s) else 0
      clutrectXY := if headerHasClut s then BitVec.ofNat 32 (s.bufRead (s.spos.toNat + 12) 4) else 0
      clutrectWH := if headerHasClut s then BitVec.ofNat 32 (s.bufRead (s.spos.toNat + 16) 4) else 0
      paloff := if headerHasClut s then BitVec.ofNat 32 (s.spos.toNat + 20) else 0
      clutn := BitVec.ofNat 32 (headerEntries s)
      clen := BitVec.ofNat 32 (headerEntries s)
      clut := (parseDone s).clut
      pixsize := BitVec.ofNat 32 (s.bufRead (headerPixelBlock s) 4)
      pixrectXY := BitVec.ofNat 32 (s.bufRead (headerPixelBlock s + 4) 4)
      pixrectWH := BitVec.ofNat 32 (s.bufRead (headerPixelBlock s + 8) 4)
      truew := BitVec.ofNat 32 (headerWidth s)
      pixoff := BitVec.ofNat 32 (headerPixelBlock s + 12)
      cache := [], qcnt := 0, status := 0 } := by
  obtain ⟨hsize, hxy, hwh, hpaloff⟩ := headerClut_registers s
  have hcount : (headerClut s).entries.length = headerEntries s := by
    rw [headerClut_entries, bufEntries_length]
  rw [← hsize, ← hxy, ← hwh, ← hpaloff, ← hcount, ← packHalves_bufRead, ← packHalves_bufRead]
  simp only [parseDone, complete, State.setStatus, State.commitParse, State.clearCache,
    State.loadClut, statusCompleted]
  rfl

/-! ## The statement -/

/-- Settles O40. -/
theorem parseLoadsTheStructure : Obligations.ParseLoadsTheStructure := by
  intro s hnone
  refine ⟨_, exec_parse_of_passed hnone, parseDone_frame s, ?length, fun k hk => ?entry⟩
  case length => rw [parseDone_clut, bufEntries_length]
  case entry =>
    rw [State.clutEntry, parseDone_clut, bufEntries_getElem?, if_pos hk, Option.getD_some,
      bufEntry_toNat, bufRead_two]

end Sys2Proof.Machine
end

section
/-!
PROOFS. `UNPACK` (42_pixel_plane R181 to R187): its faults, the pixels it writes in the four plane formats,
and what the image depends on.
-/

namespace Sys2Proof.Machine

open Sys2Proof.Safety

/-! ## The two endings, told apart by `ERR` -/

/-- A command that ends with `ERR` 0 took no fault (60_exceptions R280). -/
theorem conclude_completed {s t : State} {r : Except ErrorKind State} (h : conclude s r = .next t)
    (hcompleted : t.statusErr = 0) : r = .ok t := by
  rcases conclude_eq_next.1 h with hok | ⟨e, -, rfl⟩
  · exact hok
  · have hcode := statusErr_takeFault e s
    have hpos := (code_pos e).1
    rw [hcompleted] at hcode
    exact absurd hcode (Nat.ne_of_lt hpos)

/-! ## The state `UNPACK` leaves -/

/-- The state an `UNPACK` of format `f` leaves where its checks pass (42_pixel_plane R186). -/
def unpackDone (s : State) (f : PlaneFormat) : State :=
  complete ((s.writeImg s.imgbase.toNat (s.planeImage f)).setImageSize s.planeWidth s.planeHeight)

/-- What the checks of `UNPACK` make sure of. -/
structure UnpackPasses (s : State) (f : PlaneFormat) : Prop where
  format : s.format = .plane f
  page : ∀ g, f = .indexed g → s.wholePages g = true ∧ s.page.toNat < s.pageCount g
  width : s.widthOk f = true
  stream : s.streamAdmitted s.pixoff.toNat (s.planeSize f) = true
  image : s.imgAdmitted s.imgbase.toNat s.pixelCount = true

theorem unpack_eq_ok_iff {s t : State} :
    unpack s = .ok t ↔ ∃ f, UnpackPasses s f ∧ t = unpackDone s f := by
  rw [unpack_eq_ok]
  constructor
  · rintro ⟨f, hformat, hpage, hwidth, hstream, himage, rfl⟩
    exact ⟨f, ⟨hformat, hpage, hwidth, hstream, himage⟩, rfl⟩
  · rintro ⟨f, ⟨hformat, hpage, hwidth, hstream, himage⟩, rfl⟩
    exact ⟨f, hformat, hpage, hwidth, hstream, himage, rfl⟩

theorem unpackPasses_of_no_fault {s : State} (h : unpackFault s = none) : ∃ f, UnpackPasses s f := by
  obtain ⟨t, ht⟩ := faultCode_eq_none.1 (unpackFault_eq s ▸ h)
  obtain ⟨f, hpasses, -⟩ := unpack_eq_ok_iff.1 ht
  exact ⟨f, hpasses⟩

theorem unpackPasses_of_format {s : State} {f : PlaneFormat} (h : unpackFault s = none)
    (hformat : s.format = .plane f) : UnpackPasses s f := by
  obtain ⟨g, hpasses⟩ := unpackPasses_of_no_fault h
  obtain rfl : g = f := by simpa [hpasses.format] using hformat
  exact hpasses

theorem exec_unpack_of_passes {s : State} {f : PlaneFormat} (h : UnpackPasses s f) :
    exec .unpack s = .next (unpackDone s f) := by
  rw [exec, execUnpack, unpack_eq_ok_iff.2 ⟨f, h, rfl⟩, conclude_ok]

theorem exec_unpack_of_fault {s : State} {c : Nat} (h : unpackFault s = some c) :
    exec .unpack s = .next { s with status := BitVec.ofNat 32 c } :=
  conclude_of_faultCode (unpackFault_eq s ▸ h)

theorem unpackDone_frame (s : State) (f : PlaneFormat) :
    unpackDone s f = { s with
      img := (unpackDone s f).img, imgw := BitVec.ofNat 32 s.planeWidth
      imgh := BitVec.ofNat 32 s.planeHeight, status := 0 } := by
  simp only [unpackDone, complete, State.setStatus, State.setImageSize, State.writeImg,
    statusCompleted]
  rfl

section UnpackDone

variable (s : State) (f : PlaneFormat)

@[simp] theorem unpackDone_statusErr : (unpackDone s f).statusErr = 0 := statusErr_complete _
@[simp] theorem unpackDone_dst : (unpackDone s f).dst = s.dst := by simp [unpackDone]
@[simp] theorem unpackDone_page : (unpackDone s f).page = s.page := by simp [unpackDone]
@[simp] theorem unpackDone_imgbase : (unpackDone s f).imgbase = s.imgbase := by simp [unpackDone]

@[simp] theorem unpackDone_pixelCount : (unpackDone s f).pixelCount = s.pixelCount := by
  simp [unpackDone]

@[simp] theorem unpackDone_resolve (g : IndexedFormat) (p : Nat) (px : RGBA) :
    (unpackDone s f).resolve g p px = s.resolve g p px := by
  simp [unpackDone]

end UnpackDone

theorem unpackDone_imgCell (s : State) (f : PlaneFormat) {i : Nat} (hi : i < s.pixelCount) :
    (unpackDone s f).imgCell (s.imgbase.toNat + i) = (s.planePixel f i).word := by
  have hlength : i < (s.planeImage f).length := by rwa [planeImage_length]
  rw [unpackDone, complete_imgCell, setImageSize_imgCell, imgCell_writeImg_inside s hlength,
    List.getElem_eq_iff, planeImage_getElem?, if_pos hi]

theorem unpackDone_pixel (s : State) (f : PlaneFormat) {i : Nat} (hi : i < s.pixelCount) :
    RGBA.ofWord ((unpackDone s f).imgCell (s.imgbase.toNat + i)) = s.planePixel f i := by
  rw [unpackDone_imgCell s f hi, ofWord_word]

theorem unpackDone_imgCell_outside (s : State) (f : PlaneFormat) {j : Nat}
    (hj : j < s.imgbase.toNat ∨ s.imgbase.toNat + s.planeWidth * s.planeHeight ≤ j) :
    (unpackDone s f).imgCell j = s.imgCell j := by
  rw [unpackDone, complete_imgCell, setImageSize_imgCell, imgCell_writeImg_outside]
  rwa [planeImage_length]

/-! ## Columns and rows (00_scope R12) -/

theorem position_lt {s : State} {x y : Nat} (hx : x < s.planeWidth) (hy : y < s.planeHeight) :
    y * s.planeWidth + x < s.pixelCount := by
  calc y * s.planeWidth + x < y * s.planeWidth + s.planeWidth := by omega
    _ = (y + 1) * s.planeWidth := (Nat.succ_mul _ _).symm
    _ ≤ s.planeHeight * s.planeWidth := Nat.mul_le_mul_right _ hy
    _ = s.pixelCount := Nat.mul_comm _ _

theorem column_of_position {w x : Nat} (y : Nat) (hx : x < w) : (y * w + x) % w = x := by
  rw [Nat.mul_comm, Nat.mul_add_mod, Nat.mod_eq_of_lt hx]

/-! ## The indices of an indexed plane (42_pixel_plane R181, R182) -/

theorem planeIndex_indexed4 (s : State) (i : Nat) :
    s.planeIndex .indexed4 i =
      if i % s.planeWidth % 2 = 0 then (s.bufByte (s.pixoff.toNat + i / 2)).toNat % 16
      else (s.bufByte (s.pixoff.toNat + i / 2)).toNat / 16 := by
  have hbyte := (s.bufByte (s.pixoff.toNat + i / 2)).isLt
  simp only [State.planeIndex, BitVec.extractLsb'_toNat, Nat.shiftRight_eq_div_pow]
  split_ifs <;> omega

theorem planeIndex_indexed8 (s : State) (i : Nat) :
    s.planeIndex .indexed8 i = (s.bufByte (s.pixoff.toNat + i)).toNat := rfl

theorem planeIndex_lt (s : State) (f : IndexedFormat) (i : Nat) : s.planeIndex f i < f.pageSize := by
  cases f with
  | indexed4 =>
    have hbyte := (s.bufByte (s.pixoff.toNat + i / 2)).isLt
    rw [planeIndex_indexed4, IndexedFormat.pageSize]
    split_ifs <;> omega
  | indexed8 => exact (s.bufByte (s.pixoff.toNat + i)).isLt

/-! ## What the image depends on (42_pixel_plane R187) -/

/-- An Indexed4 plane has whole rows of bytes: its width is even (42_pixel_plane R181). -/
theorem even_of_widthOk {s : State} (h : s.widthOk (.indexed .indexed4) = true) :
    s.planeWidth % 2 = 0 := by
  have := widthOk_iff.1 h
  simp only [planeNumber, true_and] at this
  omega

/-- So its pixels come in pairs. -/
theorem pixelCount_even {s : State} (h : s.planeWidth % 2 = 0) : s.pixelCount % 2 = 0 := by
  rw [State.pixelCount, Nat.mul_mod, h, Nat.zero_mul, Nat.zero_mod]

section Operands

variable {s s' : State} {f : PlaneFormat} (hwidthOk : s.widthOk f = true) (hte : s.te = s'.te)
  (hwidth : s.planeWidth = s'.planeWidth)
  (hbytes : ∀ j < s.planeSize f,
    s.bufByte (s.pixoff.toNat + j) = s'.bufByte (s'.pixoff.toNat + j))
  (hentries : ∀ g, f = .indexed g → ∀ i < g.pageSize,
    s.clutEntry (s.page.toNat * g.pageSize + i) = s'.clutEntry (s'.page.toNat * g.pageSize + i))

include hwidthOk hwidth hbytes in
/-- The index of a pixel is read from the plane's own bytes. -/
theorem planeIndex_congr {g : IndexedFormat} (hf : f = .indexed g) {i : Nat}
    (hi : i < s.pixelCount) : s.planeIndex g i = s'.planeIndex g i := by
  subst hf
  cases g with
  | indexed4 =>
    have heven := pixelCount_even (even_of_widthOk hwidthOk)
    have hsize : i / 2 < s.planeSize (.indexed .indexed4) := by
      change i / 2 < s.pixelCount / 2
      omega
    rw [planeIndex_indexed4, planeIndex_indexed4, hwidth, hbytes _ hsize]
  | indexed8 => rw [planeIndex_indexed8, planeIndex_indexed8, hbytes i hi]

include hwidthOk hte hwidth hbytes hentries in
/-- A pixel is a function of `TE`, `W`, the plane's bytes and the active page's entries. -/
theorem planePixel_congr {i : Nat} (hi : i < s.pixelCount) :
    s.planePixel f i = s'.planePixel f i := by
  cases f with
  | indexed g =>
    simp only [State.planePixel, State.pageEntry, hte]
    rw [hentries g rfl _ (planeIndex_lt s g i), planeIndex_congr hwidthOk hwidth hbytes rfl hi]
  | direct15 =>
    have hcode : s.bufRead (s.pixoff.toNat + 2 * i) 2 = s'.bufRead (s'.pixoff.toNat + 2 * i) 2 := by
      have hsize : 2 * i + 1 < s.planeSize .direct15 := by
        change 2 * i + 1 < s.pixelCount * 2
        omega
      rw [bufRead_two, bufRead_two, hbytes _ (by omega), Nat.add_assoc, hbytes _ hsize,
        Nat.add_assoc]
    rw [State.planePixel, State.planePixel, hcode, hte]
  | direct24 =>
    have hsize : 3 * i + 2 < s.planeSize .direct24 := by
      change 3 * i + 2 < s.pixelCount * 3
      omega
    simp only [State.planePixel, Nat.add_assoc]
    rw [hbytes _ hsize, hbytes (3 * i + 1) (by omega), hbytes (3 * i) (by omega)]

end Operands

/-! ## The statements -/

/-- Settles O42. -/
theorem unpackFaultsInCheckOrder : Obligations.UnpackFaultsInCheckOrder := by
  refine fun s => ⟨fun c hc => exec_unpack_of_fault hc, fun hnone => ?_⟩
  obtain ⟨f, hpasses⟩ := unpackPasses_of_no_fault hnone
  exact ⟨_, exec_unpack_of_passes hpasses, unpackDone_statusErr s f⟩

/-- Settles O43: the format is Direct15 or Direct24, and the pixel at a position is the plane's. -/
theorem unpackDirectDecodesEveryPixel : Obligations.UnpackDirectDecodesEveryPixel := by
  intro s hnone hdirect
  obtain ⟨f, hpasses⟩ := unpackPasses_of_no_fault hnone
  have hnumber := format_eq_plane.1 hpasses.format
  refine ⟨_, exec_unpack_of_passes hpasses, unpackDone_frame s f, fun x y hx hy => ?_,
    fun j hj => unpackDone_imgCell_outside s f hj⟩
  dsimp only
  rw [unpackDone_pixel s f (position_lt hx hy)]
  rcases f with ⟨_ | _⟩ | _ | _ <;> simp only [planeNumber] at hnumber
  case indexed.indexed4 | indexed.indexed8 => omega
  case direct15 => simp only [hnumber]; rfl
  case direct24 => simp only [hnumber]; rfl

/-- Settles O44: the pixel at a position is the active page's colour of the position's index. -/
theorem unpackIndexedLooksUpEveryPixel : Obligations.UnpackIndexedLooksUpEveryPixel := by
  intro s hnone hindexed
  obtain ⟨f, hpasses⟩ := unpackPasses_of_no_fault hnone
  have hnumber := format_eq_plane.1 hpasses.format
  refine ⟨_, exec_unpack_of_passes hpasses, unpackDone_frame s f, fun x y hx hy => ?_,
    fun j hj => unpackDone_imgCell_outside s f hj⟩
  dsimp only
  rw [unpackDone_pixel s f (position_lt hx hy)]
  rcases f with ⟨_ | _⟩ | _ | _ <;> simp only [planeNumber] at hnumber
  case direct15 | direct24 => omega
  case indexed.indexed4 =>
    rw [State.planePixel, State.pageEntry, planeIndex_indexed4, column_of_position y hx]
    simp only [hnumber]
    rfl
  case indexed.indexed8 =>
    rw [State.planePixel, State.pageEntry, planeIndex_indexed8]
    simp only [hnumber]
    rfl

/-- Settles O49: both runs wrote their images, pixel by pixel from equal operands. -/
theorem unpackDependsOnlyOnItsOperands : Obligations.UnpackDependsOnlyOnItsOperands := by
  intro s s' t t' hexec hexec' hcompleted hcompleted' hformat hte hwidth hheight hbytes hentries
  obtain ⟨f, hpasses, rfl⟩ := unpack_eq_ok_iff.1 (conclude_completed hexec hcompleted)
  obtain ⟨f', hpasses', rfl⟩ := unpack_eq_ok_iff.1 (conclude_completed hexec' hcompleted')
  obtain rfl : f = f' := by simpa [hpasses.format, hpasses'.format] using hformat
  have hcount : s.pixelCount = s'.pixelCount := by
    rw [State.pixelCount, State.pixelCount, hwidth, hheight]
  rw [format_eq_plane.1 hpasses.format, sizeNumber_plane] at hbytes
  refine ⟨congrArg (BitVec.ofNat 32) hwidth, congrArg (BitVec.ofNat 32) hheight, fun i hi => ?_⟩
  have hpixel : s.planePixel f i = s'.planePixel f i :=
    planePixel_congr hpasses.width hte hwidth hbytes
      (fun g hg => hentries g (hg ▸ hpasses.format)) hi
  rw [unpackDone_imgCell s f hi, unpackDone_imgCell s' f (hcount ▸ hi), hpixel]

end Sys2Proof.Machine
end

section
/-!
PROOFS. `PACK` (42_pixel_plane R190 to R198): its faults, the plane it writes in Direct15 and in the indexed
formats, and what the plane's bytes depend on.
-/

namespace Sys2Proof.Machine

open Sys2Proof.Safety

/-! ## The state `PACK` leaves -/

/-- The state a `PACK` to format `f` leaves where its checks pass (42_pixel_plane R194, R197). -/
def packDone (s : State) (f : EncodeFormat) : State :=
  complete ((s.writeBuf s.dst.toNat (s.clearCache.encodeImage f).1).clearCache)

/-- What the checks of `PACK` make sure of. -/
structure PackPasses (s : State) (f : EncodeFormat) : Prop where
  format : s.format = .plane f.plane
  page : ∀ g, f.plane = .indexed g → s.wholePages g = true ∧ s.page.toNat < s.pageCount g
  width : s.widthOk f.plane = true
  geometry : s.imgw.toNat = s.planeWidth ∧ s.imgh.toNat = s.planeHeight
  image : s.imgAdmitted s.imgbase.toNat s.pixelCount = true
  room : s.bufAdmitted s.dst.toNat (s.planeSize f.plane) = true

theorem pack_eq_ok_iff {s t : State} :
    pack s = .ok t ↔ ∃ f, PackPasses s f ∧ t = packDone s f := by
  rw [pack_eq_ok]
  constructor
  · rintro ⟨f, hformat, hpage, hwidth, hgeometry, himage, hroom, rfl⟩
    exact ⟨f, ⟨hformat, hpage, hwidth, hgeometry, himage, hroom⟩, rfl⟩
  · rintro ⟨f, ⟨hformat, hpage, hwidth, hgeometry, himage, hroom⟩, rfl⟩
    exact ⟨f, hformat, hpage, hwidth, hgeometry, himage, hroom, rfl⟩

theorem encodeFormat_plane_inj {f g : EncodeFormat} (h : f.plane = g.plane) : f = g := by
  have hf : encodeFormatOf (.plane f.plane) = .ok f := encodeFormatOf_eq_ok.2 rfl
  have hg : encodeFormatOf (.plane f.plane) = .ok g := encodeFormatOf_eq_ok.2 (by rw [h])
  exact Except.ok.inj (hf.symm.trans hg)

theorem packPasses_of_no_fault {s : State} (h : packFault s = none) : ∃ f, PackPasses s f := by
  obtain ⟨t, ht⟩ := faultCode_eq_none.1 (packFault_eq s ▸ h)
  obtain ⟨f, hpasses, -⟩ := pack_eq_ok_iff.1 ht
  exact ⟨f, hpasses⟩

theorem packPasses_of_format {s : State} {f : EncodeFormat} (h : packFault s = none)
    (hformat : s.format = .plane f.plane) : PackPasses s f := by
  obtain ⟨g, hpasses⟩ := packPasses_of_no_fault h
  obtain rfl : g = f := encodeFormat_plane_inj (by simpa [hpasses.format] using hformat)
  exact hpasses

theorem exec_pack_of_passes {s : State} {f : EncodeFormat} (h : PackPasses s f) :
    exec .pack s = .next (packDone s f) := by
  rw [exec, execPack, pack_eq_ok_iff.2 ⟨f, h, rfl⟩, conclude_ok]

theorem exec_pack_of_fault {s : State} {c : Nat} (h : packFault s = some c) :
    exec .pack s = .next { s with status := BitVec.ofNat 32 c } :=
  conclude_of_faultCode (packFault_eq s ▸ h)

theorem packDone_frame (s : State) (f : EncodeFormat) :
    packDone s f = { s with buf := (packDone s f).buf, cache := [], qcnt := 0, status := 0 } := rfl

theorem packDone_statusErr (s : State) (f : EncodeFormat) : (packDone s f).statusErr = 0 :=
  statusErr_complete _

/-- Byte `j` of the plane stands at `DST + j`. -/
theorem packDone_bufByte (s : State) (f : EncodeFormat) {j : Nat} {b : Byte}
    (h : (s.clearCache.encodeImage f).1[j]? = some b) :
    (packDone s f).bufByte (s.dst.toNat + j) = b := by
  obtain ⟨hj, hb⟩ := List.getElem?_eq_some_iff.1 h
  rw [packDone, complete_bufByte, clearCache_bufByte, bufByte_writeBuf_inside s hj, hb]

theorem packDone_bufByte_outside (s : State) (f : EncodeFormat) {a : Nat}
    (ha : a < s.dst.toNat ∨ s.dst.toNat + s.planeSize f.plane ≤ a) :
    (packDone s f).bufByte a = s.bufByte a := by
  rw [packDone, complete_bufByte, clearCache_bufByte, bufByte_writeBuf_outside]
  rwa [encodeImage_length]

/-! ## The image `PACK` reads -/

theorem sourceImage_getElem? (s : State) {i : Nat} (hi : i < s.pixelCount) :
    s.sourceImage[i]? = some (imagePixel s i) := by
  rw [State.sourceImage, List.getElem?_map, imgCells_getElem?, if_pos hi]
  rfl

theorem sourceImage_getElem (s : State) {i : Nat} (hi : i < s.sourceImage.length) :
    s.sourceImage[i] = imagePixel s i := by
  rw [List.getElem_eq_iff, sourceImage_getElem? s (by simpa using hi)]

theorem sourceImage_congr {s s' : State} (hcount : s.pixelCount = s'.pixelCount)
    (h : ∀ i < s.pixelCount, imagePixel s i = imagePixel s' i) :
    s.sourceImage = s'.sourceImage := by
  apply List.ext_getElem (by simpa using hcount)
  intro i hi _
  rw [sourceImage_getElem, sourceImage_getElem, h i (by simpa using hi)]

theorem clearCache_sourceImage (s : State) : s.clearCache.sourceImage = s.sourceImage :=
  sourceImage_congr rfl fun _ _ => rfl

/-! ## Direct15 (42_pixel_plane R195) -/

theorem encodeImage_direct15 (s : State) :
    (s.clearCache.encodeImage .direct15).1 = entryBytes (s.sourceImage.map encode16) := by
  rw [State.encodeImage, clearCache_sourceImage]

theorem encodeImage_indexed (s : State) (f : IndexedFormat) :
    (s.clearCache.encodeImage (.indexed f)).1 =
      indexBytes f (quantizeAll f s.page.toNat s.clearCache s.sourceImage).1 := by
  rw [State.encodeImage, clearCache_sourceImage, clearCache_page]

/-- The two bytes of a pixel are its code, low byte first. -/
theorem packDone_code (s : State) {i : Nat} (hi : i < s.pixelCount) :
    ((packDone s .direct15).bufByte (s.dst.toNat + 2 * i)).toNat +
        256 * ((packDone s .direct15).bufByte (s.dst.toNat + 2 * i + 1)).toNat =
      (encode16 (imagePixel s i)).toNat := by
  have hlength : i < (s.sourceImage.map encode16).length := by simpa using hi
  obtain ⟨hlow, hhigh⟩ := bufByte_writeBuf_entryBytes_toNat s s.dst.toNat hlength
  rw [List.getElem_map, sourceImage_getElem] at hlow hhigh
  rw [packDone, complete_bufByte, complete_bufByte, clearCache_bufByte, clearCache_bufByte,
    encodeImage_direct15, hlow, hhigh]
  omega

/-! ## The indices of an indexed plane (42_pixel_plane R196, 43_quantizer R224) -/

/-- The first pixel of the image with the key of pixel `i`. -/
def firstWithKey (s : State) (i : Nat) : RGBA :=
  (s.sourceImage.find? fun q => encode16 q = encode16 (imagePixel s i)).getD (imagePixel s i)

/-- The index `PACK` gives pixel `i`. -/
def packIndex (s : State) (f : IndexedFormat) (i : Nat) : Nat :=
  s.resolve f s.page.toNat (firstWithKey s i)

theorem firstWithKey_spec (s : State) {i : Nat} (hi : i < s.pixelCount) :
    ∃ j ≤ i, encode16 (imagePixel s j) = encode16 (imagePixel s i) ∧
      (∀ k < j, encode16 (imagePixel s k) ≠ encode16 (imagePixel s i)) ∧
      firstWithKey s i = imagePixel s j := by
  have hmem : imagePixel s i ∈ s.sourceImage := List.mem_of_getElem? (sourceImage_getElem? s hi)
  have hfound : (s.sourceImage.find? fun q => encode16 q = encode16 (imagePixel s i)).isSome :=
    List.find?_isSome.2 ⟨_, hmem, by simp⟩
  obtain ⟨q, hq⟩ := Option.isSome_iff_exists.1 hfound
  obtain ⟨hkey, j, hj, hqj, hfirst⟩ := List.find?_eq_some_iff_getElem.1 hq
  rw [sourceImage_getElem] at hqj
  subst hqj
  have hne : ∀ k < j, encode16 (imagePixel s k) ≠ encode16 (imagePixel s i) := fun k hk => by
    simpa [sourceImage_getElem] using hfirst k hk
  have hle : j ≤ i := Nat.not_lt.1 fun hlt => hne i hlt rfl
  exact ⟨j, hle, of_decide_eq_true hkey, hne, by rw [firstWithKey, hq, Option.getD_some]⟩

theorem packIndex_lt (s : State) (f : IndexedFormat) (i : Nat) : packIndex s f i < f.pageSize :=
  resolve_lt s f _ _

/-- `PACK` starts from an empty cache, so no index comes from what the cache held before. -/
theorem quantizeAll_clearCache (s : State) (f : IndexedFormat) {i : Nat} (hi : i < s.pixelCount) :
    (quantizeAll f s.page.toNat s.clearCache s.sourceImage).1[i]? =
      some (BitVec.ofNat 8 (packIndex s f i)) := by
  have hlength : i < s.sourceImage.length := by rwa [sourceImage_length]
  rw [quantizeAll_getElem? f _ _ _ _ hlength, sourceImage_getElem, cacheCell_clearCache]
  rfl

theorem encodeImage_indexed8 (s : State) {i : Nat} (hi : i < s.pixelCount) :
    (s.clearCache.encodeImage (.indexed .indexed8)).1[i]? =
      some (BitVec.ofNat 8 (packIndex s .indexed8 i)) := by
  rw [encodeImage_indexed, indexBytes, quantizeAll_clearCache s .indexed8 hi]

theorem encodeImage_indexed4 (s : State) {j : Nat} (hj : j < s.pixelCount / 2) :
    (s.clearCache.encodeImage (.indexed .indexed4)).1[j]? =
      some (BitVec.ofNat 8 (packIndex s .indexed4 (2 * j)) |||
        BitVec.ofNat 8 (packIndex s .indexed4 (2 * j + 1)) <<< 4) := by
  have heven : 2 * j < s.pixelCount := by omega
  have hodd : 2 * j + 1 < s.pixelCount := by omega
  rw [encodeImage_indexed, indexBytes]
  exact packNibbles_getElem? _ _ _ _ (quantizeAll_clearCache s .indexed4 heven)
    (quantizeAll_clearCache s .indexed4 hodd)

theorem packDone_indexed8 (s : State) {i : Nat} (hi : i < s.pixelCount) :
    ((packDone s (.indexed .indexed8)).bufByte (s.dst.toNat + i)).toNat = packIndex s .indexed8 i := by
  rw [packDone_bufByte s _ (encodeImage_indexed8 s hi), BitVec.toNat_ofNat]
  exact Nat.mod_eq_of_lt (packIndex_lt s .indexed8 i)

/-- Two indices a byte, the even position in the low nibble (42_pixel_plane R195). -/
theorem packDone_indexed4 (s : State) {j : Nat} (hj : j < s.pixelCount / 2) :
    ((packDone s (.indexed .indexed4)).bufByte (s.dst.toNat + j)).toNat =
      packIndex s .indexed4 (2 * j) + 16 * packIndex s .indexed4 (2 * j + 1) := by
  have hnibble : ∀ i, (BitVec.ofNat 8 (packIndex s .indexed4 i)).toNat = packIndex s .indexed4 i ∧
      packIndex s .indexed4 i < 2 ^ 4 := fun i => by
    have hlt : packIndex s .indexed4 i < 16 := packIndex_lt s .indexed4 i
    rw [BitVec.toNat_ofNat]
    omega
  obtain ⟨hlow, hlowlt⟩ := hnibble (2 * j)
  obtain ⟨hhigh, hhighlt⟩ := hnibble (2 * j + 1)
  rw [packDone_bufByte s _ (encodeImage_indexed4 s hj),
    toNat_or_shiftLeft (by omega) (by omega), hlow, hhigh]
  rfl

/-! ## What the plane depends on (42_pixel_plane R198) -/

/-- The minimum tracker looks at the distances it scans and at no other. -/
theorem leastIndex_congr {d d' : Nat → Nat} {n : Nat} (h : ∀ j ≤ n, d j = d' j) :
    leastIndex d n = leastIndex d' n := by
  induction n with
  | zero => rfl
  | succ n ih =>
    have hn := ih fun j hj => h j (by omega)
    have hle := (leastIndex_spec d' n).1
    rw [leastIndex, leastIndex, hn, h _ (Nat.le_refl _), h (leastIndex d' n) (by omega)]

/-- Steps 2 and 3 of the quantizer look at the entries of one page. -/
theorem resolve_congr {s s' : State} {f : IndexedFormat} {p p' : Nat}
    (h : ∀ i < f.pageSize, s.pageEntry f p i = s'.pageEntry f p' i) (px : RGBA) :
    s.resolve f p px = s'.resolve f p' px := by
  have hpos := (pageSize_pos f).1
  have hptrans : s.ptrans f p = s'.ptrans f p' :=
    List.find?_congr fun i hi => by rw [h i (List.mem_range.1 hi)]
  have hnearest : s.nearest f p px = s'.nearest f p' px :=
    leastIndex_congr fun j hj => by rw [h j (by omega)]
  rw [State.resolve, State.resolve, hptrans, hnearest]

theorem quantizeAll_congr {s s' : State} {f : IndexedFormat}
    (himage : s.sourceImage = s'.sourceImage)
    (h : ∀ px, s.resolve f s.page.toNat px = s'.resolve f s'.page.toNat px) :
    (quantizeAll f s.page.toNat s.clearCache s.sourceImage).1 =
      (quantizeAll f s'.page.toNat s'.clearCache s'.sourceImage).1 := by
  rw [← himage]
  apply List.ext_getElem?
  intro i
  by_cases hi : i < s.sourceImage.length
  · rw [quantizeAll_getElem? f _ _ _ _ hi, quantizeAll_getElem? f _ _ _ _ hi, cacheCell_clearCache,
      cacheCell_clearCache]
    exact congrArg (fun n => some (BitVec.ofNat 8 n)) (h _)
  · rw [List.getElem?_eq_none (by simpa using hi), List.getElem?_eq_none (by simpa using hi)]

theorem encodeImage_congr {s s' : State} {f : EncodeFormat} (himage : s.sourceImage = s'.sourceImage)
    (h : ∀ g, f = .indexed g → ∀ i < g.pageSize,
      s.pageEntry g s.page.toNat i = s'.pageEntry g s'.page.toNat i) :
    (s.clearCache.encodeImage f).1 = (s'.clearCache.encodeImage f).1 := by
  cases f with
  | direct15 => rw [encodeImage_direct15, encodeImage_direct15, himage]
  | indexed g =>
    rw [encodeImage_indexed, encodeImage_indexed,
      quantizeAll_congr himage (resolve_congr (h g rfl))]

/-! ## The statements -/

/-- Settles O45. -/
theorem packFaultsInCheckOrder : Obligations.PackFaultsInCheckOrder := by
  refine fun s => ⟨fun c hc => exec_pack_of_fault hc, fun hnone => ?_⟩
  obtain ⟨f, hpasses⟩ := packPasses_of_no_fault hnone
  exact ⟨_, exec_pack_of_passes hpasses, packDone_statusErr s f⟩

/-- Settles O46. -/
theorem packDirect15EncodesEveryPixel : Obligations.PackDirect15EncodesEveryPixel := by
  intro s hnone hnumber
  have hpasses : PackPasses s .direct15 := packPasses_of_format hnone (format_eq_plane.2 hnumber)
  refine ⟨_, exec_pack_of_passes hpasses, packDone_frame s _, fun i hi => packDone_code s hi,
    fun a ha => packDone_bufByte_outside s _ ?_⟩
  rwa [State.planeSize, EncodeFormat.plane, PlaneFormat.planeBytes, Nat.mul_comm _ 2]

/-- Settles O47: the index is `packIndex`, which resolves the first pixel of the image with the key. -/
theorem packIndexedUsesTheFirstPixelOfEachKey :
    Obligations.PackIndexedUsesTheFirstPixelOfEachKey := by
  intro s f hnone hformat
  have hpasses : PackPasses s (.indexed f) := packPasses_of_format hnone hformat
  refine ⟨_, packIndex s f, exec_pack_of_passes hpasses, packDone_frame s _, fun i hi => ?first,
    ?bytes8, ?bytes4, fun a ha => packDone_bufByte_outside s _ ?_⟩
  case first =>
    obtain ⟨j, hle, hkey, hfirst, hpixel⟩ := firstWithKey_spec s hi
    exact ⟨packIndex_lt s f i, j, hle, hkey, hfirst, by rw [packIndex, hpixel]⟩
  case bytes8 =>
    rintro rfl i hi
    exact packDone_indexed8 s hi
  case bytes4 =>
    rintro rfl j hj
    exact packDone_indexed4 s hj
  cases f <;> exact ha

/-- Settles O48: both runs wrote their encoded images, and those are equal lists of bytes. -/
theorem packDependsOnlyOnItsOperands : Obligations.PackDependsOnlyOnItsOperands := by
  intro s s' t t' hexec hexec' hcompleted hcompleted' hformat hte hwidth hheight himage hentries j hj
  obtain ⟨f, hpasses, rfl⟩ := pack_eq_ok_iff.1 (conclude_completed hexec hcompleted)
  obtain ⟨f', hpasses', rfl⟩ := pack_eq_ok_iff.1 (conclude_completed hexec' hcompleted')
  obtain rfl : f = f' :=
    encodeFormat_plane_inj (by simpa [hpasses.format, hpasses'.format] using hformat)
  have hcount : s.pixelCount = s'.pixelCount := by
    rw [State.pixelCount, State.pixelCount, hwidth, hheight]
  have hsource := sourceImage_congr hcount himage
  have hbytes : (s.clearCache.encodeImage f).1 = (s'.clearCache.encodeImage f).1 := by
    refine encodeImage_congr hsource fun g hg i hi => ?_
    subst hg
    rw [State.pageEntry, State.pageEntry, hte, hentries g hpasses.format i hi]
  have hlength : j < (s.clearCache.encodeImage f).1.length := by
    rw [format_eq_plane.1 hpasses.format, sizeNumber_plane] at hj
    rwa [encodeImage_length]
  obtain ⟨b, hb⟩ : ∃ b, (s.clearCache.encodeImage f).1[j]? = some b :=
    ⟨_, List.getElem?_eq_getElem hlength⟩
  rw [packDone_bufByte s f hb, packDone_bufByte s' f (hbytes ▸ hb)]

end Sys2Proof.Machine
end

section
/-!
PROOFS. `UNPACK` followed by `PACK` (42_pixel_plane R199, R200): the second command finds the image the first
one wrote, and its codes or indices are those the plane held.
-/

namespace Sys2Proof.Machine

open Sys2Proof.Safety

/-! ## `PACK` after `UNPACK` -/

/-- `IMGW` and `IMGH` have room for any width and height of a plane (10_state R39, R41, R44). -/
theorem imageSize_unpackDone (s : State) (f : PlaneFormat) :
    (unpackDone s f).imgw.toNat = s.planeWidth ∧ (unpackDone s f).imgh.toNat = s.planeHeight := by
  have hwidth : s.planeWidth < 2 ^ 18 := BitVec.isLt _
  have hheight : s.planeHeight < 2 ^ 16 := BitVec.isLt _
  rw [unpackDone_frame]
  simp only [BitVec.toNat_ofNat]
  omega

/-- After an `UNPACK` to an encodable format the checks of `PACK` pass where the plane fits at `DST`. -/
theorem packPasses_unpackDone {s : State} {f : EncodeFormat} (h : UnpackPasses s f.plane)
    (hroom : s.bufAdmitted s.dst.toNat (s.planeSize f.plane) = true) :
    PackPasses (unpackDone s f.plane) f where
  format := by simpa [unpackDone] using h.format
  page := by simpa [unpackDone] using h.page
  width := by simpa [widthOk_iff, unpackDone] using h.width
  geometry := by simpa [unpackDone] using imageSize_unpackDone s f.plane
  image := by simpa [imgAdmitted_iff, unpackDone] using h.image
  room := by simpa [bufAdmitted_iff, State.planeSize, unpackDone] using hroom

theorem runs_unpack_pack {s : State} {f : EncodeFormat} {p : PlaneFormat} (hp : f.plane = p)
    (h : UnpackPasses s p) (hroom : s.bufAdmitted s.dst.toNat (s.planeSize p) = true) :
    RunsTo .unpack .pack s (unpackDone s p) (packDone (unpackDone s p) f) := by
  subst hp
  exact ⟨exec_unpack_of_passes h, exec_pack_of_passes (packPasses_unpackDone h hroom)⟩

/-- The image `PACK` reads is the plane's. -/
theorem imagePixel_unpackDone (s : State) (f : PlaneFormat) {i : Nat} (hi : i < s.pixelCount) :
    imagePixel (unpackDone s f) i = s.planePixel f i := by
  rw [imagePixel, unpackDone_imgbase, unpackDone_pixel s f hi]

/-! ## Direct15 (42_pixel_plane R200) -/

/-- The code of pixel `i` of a Direct15 plane, packed again. -/
theorem repacked_code (s : State) {i : Nat} (hi : i < s.pixelCount) :
    (packDone (unpackDone s .direct15) .direct15).bufRead (s.dst.toNat + 2 * i) 2 =
      if s.ctrl.toNat % 2 = 1 ∧ s.bufRead (s.pixoff.toNat + 2 * i) 2 = 0 then 0x8000
      else s.bufRead (s.pixoff.toNat + 2 * i) 2 % 2 ^ 15 := by
  have hcode := packDone_code (unpackDone s .direct15) (i := i) (by rwa [unpackDone_pixelCount])
  rw [imagePixel_unpackDone s .direct15 hi, unpackDone_dst, State.planePixel,
    encode16_decode16_toNat, bufEntry_toNat, ← bufRead_two] at hcode
  rw [bufRead_two]
  simp only [te_iff] at hcode
  exact hcode

/-! ## An indexed page with distinct entries (42_pixel_plane R199) -/

/-- The low 15 bits of the page's entries are pairwise distinct. -/
def DistinctPage (s : State) (f : IndexedFormat) (p : Nat) : Prop :=
  ∀ i < f.pageSize, ∀ j < f.pageSize, i ≠ j →
    (s.clutEntry (p * f.pageSize + i)).toNat % 2 ^ 15 ≠
      (s.clutEntry (p * f.pageSize + j)).toNat % 2 ^ 15

theorem channelDistance_eq_zero {x y : Byte} : channelDistance x y = 0 ↔ x = y := by
  rw [channelDistance, ← BitVec.toNat_inj]
  omega

/-- Only a pixel of the same three channels is at distance 0. -/
theorem dist2_eq_zero {px e : RGBA} : dist2 px e = 0 ↔ px.r = e.r ∧ px.g = e.g ∧ px.b = e.b := by
  simp only [dist2, Nat.add_eq_zero_iff, mul_self_eq_zero, channelDistance_eq_zero, and_assoc]

/-- The low 15 bits of a code are its three channels. -/
theorem low15_eq_channels (c : Color16) (te : Bool) :
    c.toNat % 2 ^ 15 = (decode16 c te).r.toNat / 8 + 32 * ((decode16 c te).g.toNat / 8) +
      1024 * ((decode16 c te).b.toNat / 8) := by
  rw [decode16_r_toNat, decode16_g_toNat, decode16_b_toNat]
  omega

section DistinctPage

variable {s : State} {f : IndexedFormat} {p : Nat} (hdistinct : DistinctPage s f p)
include hdistinct

/-- Entries with the same low 15 bits are one entry. -/
theorem index_eq_of_low15 {i j : Nat} (hi : i < f.pageSize) (hj : j < f.pageSize)
    (h : (s.clutEntry (p * f.pageSize + i)).toNat % 2 ^ 15 =
      (s.clutEntry (p * f.pageSize + j)).toNat % 2 ^ 15) : i = j := by
  by_contra hne
  exact hdistinct i hi j hj hne h

/-- Entries at distance 0 are one entry. -/
theorem index_eq_of_dist2 {i j : Nat} (hi : i < f.pageSize) (hj : j < f.pageSize)
    (h : dist2 (s.pageEntry f p i) (s.pageEntry f p j) = 0) : i = j := by
  obtain ⟨hr, hg, hb⟩ := dist2_eq_zero.1 h
  refine index_eq_of_low15 hdistinct hi hj ?_
  rw [low15_eq_channels _ s.te, low15_eq_channels _ s.te]
  simp only [State.pageEntry] at hr hg hb
  rw [hr, hg, hb]

/-- Entries with the same key are one entry: the key keeps the low 15 bits, or tells a transparent 0. -/
theorem index_eq_of_key {i j : Nat} (hi : i < f.pageSize) (hj : j < f.pageSize)
    (h : encode16 (s.pageEntry f p i) = encode16 (s.pageEntry f p j)) : i = j := by
  refine index_eq_of_low15 hdistinct hi hj ?_
  have hkey := congrArg BitVec.toNat h
  simp only [State.pageEntry, encode16_decode16_toNat] at hkey
  split_ifs at hkey <;> omega

/-- Steps 2 and 3 of the quantizer find the entry a colour of the page came from. -/
theorem resolve_pageEntry {a : Nat} (ha : a < f.pageSize) :
    s.resolve f p (s.pageEntry f p a) = a := by
  unfold State.resolve
  split_ifs with halpha
  · have hfirst : s.ptrans f p = some a := by
      refine ptrans_eq_some.2 ⟨ha, halpha, fun j hj hj0 => ?_⟩
      obtain ⟨-, hzero⟩ := pageEntry_alpha_eq_zero.1 halpha
      obtain ⟨-, hzero'⟩ := pageEntry_alpha_eq_zero.1 hj0
      have heq := index_eq_of_low15 hdistinct (Nat.lt_trans hj ha) ha (by rw [hzero, hzero'])
      omega
    rw [hfirst, Option.getD_some]
  · obtain ⟨hle, hleast, -⟩ :=
      leastIndex_spec (fun i => dist2 (s.pageEntry f p a) (s.pageEntry f p i)) (f.pageSize - 1)
    have hself : dist2 (s.pageEntry f p a) (s.pageEntry f p a) = 0 :=
      dist2_eq_zero.2 ⟨rfl, rfl, rfl⟩
    have hzero := Nat.le_zero.1 (hself ▸ hleast a (by omega))
    exact (index_eq_of_dist2 hdistinct ha (by omega) hzero).symm

end DistinctPage

/-- `PACK` gives each pixel of the unpacked plane the index it was looked up by. -/
theorem packIndex_unpackDone {s : State} {f : IndexedFormat}
    (hdistinct : DistinctPage s f s.page.toNat) {i : Nat} (hi : i < s.pixelCount) :
    packIndex (unpackDone s (.indexed f)) f i = s.planeIndex f i := by
  obtain ⟨j, hj, hkey, -, hfirst⟩ :=
    firstWithKey_spec (unpackDone s (.indexed f)) (i := i) (by rwa [unpackDone_pixelCount])
  have hj' : j < s.pixelCount := Nat.lt_of_le_of_lt hj hi
  rw [imagePixel_unpackDone s _ hj', imagePixel_unpackDone s _ hi] at hkey
  rw [packIndex, hfirst, imagePixel_unpackDone s _ hj', unpackDone_resolve, unpackDone_page,
    ← index_eq_of_key hdistinct (planeIndex_lt s f j) (planeIndex_lt s f i) hkey]
  exact resolve_pageEntry hdistinct (planeIndex_lt s f j)

/-- A byte of an Indexed4 plane is the index at its even position and the one at its odd position. -/
theorem planeIndex_pair {s : State} (heven : s.planeWidth % 2 = 0) (j : Nat) :
    s.planeIndex .indexed4 (2 * j) + 16 * s.planeIndex .indexed4 (2 * j + 1) =
      (s.bufByte (s.pixoff.toNat + j)).toNat := by
  have hdvd : 2 ∣ s.planeWidth := Nat.dvd_of_mod_eq_zero heven
  have hlow : 2 * j % s.planeWidth % 2 = 0 := by
    rw [Nat.mod_mod_of_dvd _ hdvd]
    omega
  have hhigh : ¬(2 * j + 1) % s.planeWidth % 2 = 0 := by
    rw [Nat.mod_mod_of_dvd _ hdvd]
    omega
  have hj : 2 * j / 2 = j := by omega
  have hj' : (2 * j + 1) / 2 = j := by omega
  rw [planeIndex_indexed4, planeIndex_indexed4, if_pos hlow, if_neg hhigh, hj, hj']
  omega

/-- Byte `j` of an indexed plane, packed again. -/
theorem repacked_byte {s : State} {f : IndexedFormat} (h : UnpackPasses s (.indexed f))
    (hdistinct : DistinctPage s f s.page.toNat) {j : Nat} (hj : j < s.planeSize (.indexed f)) :
    (packDone (unpackDone s (.indexed f)) (.indexed f)).bufByte (s.dst.toNat + j) =
      s.bufByte (s.pixoff.toNat + j) := by
  apply BitVec.eq_of_toNat_eq
  cases f with
  | indexed4 =>
    have hpair : j < s.pixelCount / 2 := hj
    have hbyte := packDone_indexed4 (unpackDone s (.indexed .indexed4)) (j := j)
      (by rwa [unpackDone_pixelCount])
    rw [unpackDone_dst, packIndex_unpackDone hdistinct (by omega),
      packIndex_unpackDone hdistinct (by omega), planeIndex_pair (even_of_widthOk h.width)] at hbyte
    exact hbyte
  | indexed8 =>
    have hbyte := packDone_indexed8 (unpackDone s (.indexed .indexed8)) (i := j)
      (by rwa [unpackDone_pixelCount])
    rw [unpackDone_dst, packIndex_unpackDone hdistinct hj, planeIndex_indexed8] at hbyte
    exact hbyte

/-! ## The statements -/

/-- Settles O51. -/
theorem direct15RoundTripLosesOnlyStp : Obligations.Direct15RoundTripLosesOnlyStp := by
  intro s hnumber hnone n hfits
  have hpasses : UnpackPasses s .direct15 :=
    unpackPasses_of_format hnone (format_eq_plane.2 hnumber)
  have hroom : s.bufAdmitted s.dst.toNat (s.planeSize .direct15) = true := by
    rw [State.planeSize, PlaneFormat.planeBytes, Nat.mul_comm _ 2]
    exact bufAdmitted_entries.2 hfits
  exact ⟨_, _, runs_unpack_pack (f := .direct15) rfl hpasses hroom, packDone_statusErr _ _,
    fun i hi => repacked_code s hi⟩

/-- Settles O50: on a distinct page the quantizer finds the index each pixel was looked up by. -/
theorem indexedRoundTripOfADistinctPage : Obligations.IndexedRoundTripOfADistinctPage := by
  intro s f hformat hnone hfits hdistinct
  have hpasses : UnpackPasses s (.indexed f) := unpackPasses_of_format hnone hformat
  rw [format_eq_plane.1 hformat, sizeNumber_plane] at *
  have hroom : s.bufAdmitted s.dst.toNat (s.planeSize (.indexed f)) = true := by
    rw [bufAdmitted_iff, State.planeSize]
    omega
  exact ⟨_, _, runs_unpack_pack (f := .indexed f) rfl hpasses hroom, packDone_statusErr _ _,
    fun j hj => repacked_byte hpasses hdistinct hj⟩

end Sys2Proof.Machine
end

section
/-!
PROOFS. The quantizer (43_quantizer R224 to R233): its distance, what its steps 2 and 3 find, and `QMATCH` as a
fault of the page checks, a hit, or a miss.
-/

namespace Sys2Proof.Machine

open Sys2Proof.Safety

/-! ## The distance (43_quantizer R225, R233) -/

theorem channelDistance_sq (x y : Byte) :
    ((channelDistance x y * channelDistance x y : Nat) : Int) =
      ((x.toNat : Int) - y.toNat) ^ 2 := by
  rw [channelDistance, Int.natAbs_mul_self, sq]

theorem dist2_eq_squaredDistance (px e : RGBA) : (dist2 px e : Int) = squaredDistance px e := by
  rw [dist2, squaredDistance, Nat.cast_add, Nat.cast_add, channelDistance_sq, channelDistance_sq,
    channelDistance_sq]

theorem channelDistance_le (x y : Byte) : channelDistance x y ≤ 255 := by
  rw [channelDistance]
  omega

/-- Three channels at most 255 apart: 3 * 255² = 195075. -/
theorem dist2_le (px e : RGBA) : dist2 px e ≤ 195075 := by
  have hsq : ∀ x y : Byte, channelDistance x y * channelDistance x y ≤ 255 * 255 := fun x y =>
    Nat.mul_le_mul (channelDistance_le x y) (channelDistance_le x y)
  have hr := hsq px.r e.r
  have hg := hsq px.g e.g
  have hb := hsq px.b e.b
  rw [dist2]
  omega

/-! ## Steps 2 and 3 (43_quantizer R224) -/

/-- A transparent pixel goes to the page's first transparent entry, or to index 0. -/
theorem resolve_of_transparent (s : State) (f : IndexedFormat) (p : Nat) {px : RGBA}
    (ha : px.a = 0) :
    ((s.pageEntry f p (s.resolve f p px)).a = 0 ∧
        ∀ j < s.resolve f p px, (s.pageEntry f p j).a ≠ 0) ∨
      (s.resolve f p px = 0 ∧ ∀ j < f.pageSize, (s.pageEntry f p j).a ≠ 0) := by
  rw [State.resolve, if_pos ha]
  cases hfirst : s.ptrans f p with
  | some i => exact .inl (ptrans_eq_some.1 hfirst).2
  | none => exact .inr ⟨rfl, ptrans_eq_none.1 hfirst⟩

/-- Any other pixel goes to the first of the nearest entries. -/
theorem resolve_of_visible (s : State) (f : IndexedFormat) (p : Nat) {px : RGBA} (ha : px.a ≠ 0)
    {j : Nat} (hj : j < f.pageSize) :
    squaredDistance px (s.pageEntry f p (s.resolve f p px)) ≤
        squaredDistance px (s.pageEntry f p j) ∧
      (j < s.resolve f p px →
        squaredDistance px (s.pageEntry f p (s.resolve f p px)) <
          squaredDistance px (s.pageEntry f p j)) := by
  obtain ⟨-, hleast, hfirst⟩ :=
    leastIndex_spec (fun i => dist2 px (s.pageEntry f p i)) (f.pageSize - 1)
  simp only [← dist2_eq_squaredDistance, Nat.cast_le, Nat.cast_lt]
  rw [State.resolve, if_neg ha]
  exact ⟨hleast j (by omega), hfirst j⟩

/-! ## `QMATCH` (43_quantizer R226) -/

/-- The page checks read `MODE`, `CLEN` and `PAGE`. -/
theorem checkPage_congr {s t : State} (hmode : t.mode = s.mode) (hclen : t.clen = s.clen)
    (hpage : t.page = s.page) : t.checkPage = s.checkPage := by
  cases s
  cases t
  cases hmode
  cases hclen
  cases hpage
  rfl

section Qmatch

variable {s : State} {f : IndexedFormat} (hpage : s.checkPage = .ok f)
include hpage

theorem exec_qmatch_of_hit {i : Byte}
    (hcell : s.cacheCell (encode16 (RGBA.ofWord s.opa)) = some i) :
    exec .qmatch s = .next { s with res := i.setWidth 32, status := 0x100 } := by
  rw [exec, execQmatch, qmatch_eq_ok.2 ⟨f, hpage, rfl⟩, conclude_ok, quantize, hcell]
  rfl

theorem exec_qmatch_of_miss
    (hcell : s.cacheCell (encode16 (RGBA.ofWord s.opa)) = none) :
    exec .qmatch s = .next
      { s.fillCache (encode16 (RGBA.ofWord s.opa))
          (BitVec.ofNat 8 (s.resolve f s.page.toNat (RGBA.ofWord s.opa))) with
        res := BitVec.ofNat 32 (s.resolve f s.page.toNat (RGBA.ofWord s.opa)), status := 0 } := by
  have hlt : s.resolve f s.page.toNat (RGBA.ofWord s.opa) < 2 ^ 8 :=
    Nat.lt_of_lt_of_le (resolve_lt s f _ _) (pageSize_pos f).2
  have hwide := BitVec.setWidth_ofNat_of_le_of_lt (show 8 ≤ 32 by decide) hlt
  rw [exec, execQmatch, qmatch_eq_ok.2 ⟨f, hpage, rfl⟩, conclude_ok, quantize, hcell, ← hwide]
  rfl

/-- After a `QMATCH` its key is cached, and `RES` is the cached index, hit or miss. -/
theorem exec_qmatch_caches :
    ∃ (m : State) (i : Byte), exec .qmatch s = .next m ∧
      m.cacheCell (encode16 (RGBA.ofWord s.opa)) = some i ∧ m.res = i.setWidth 32 ∧
      m.checkPage = .ok f := by
  cases hcell : s.cacheCell (encode16 (RGBA.ofWord s.opa)) with
  | some i =>
    exact ⟨_, i, exec_qmatch_of_hit hpage hcell, hcell, rfl,
      (checkPage_congr rfl rfl rfl).trans hpage⟩
  | none =>
    have hlt : s.resolve f s.page.toNat (RGBA.ofWord s.opa) < 2 ^ 8 :=
      Nat.lt_of_lt_of_le (resolve_lt s f _ _) (pageSize_pos f).2
    refine ⟨_, _, exec_qmatch_of_miss hpage hcell,
      (cacheCell_fillCache s _ _ _).trans (if_pos rfl),
      (BitVec.setWidth_ofNat_of_le_of_lt (by decide) hlt).symm,
      (checkPage_congr rfl rfl rfl).trans hpage⟩

end Qmatch

/-! ## The statements -/

/-- Settles O57. -/
theorem distanceIsEuclideanAndBounded : Obligations.DistanceIsEuclideanAndBounded :=
  fun px e => ⟨dist2_eq_squaredDistance px e, dist2_le px e⟩

/-- Settles O53: the page checks are the only checks `QMATCH` makes. -/
theorem qmatchFaultsInCheckOrder : Obligations.QmatchFaultsInCheckOrder :=
  fun s _ hc => conclude_of_faultCode (faultCode_bind_of_some (pageFault_eq s ▸ hc) _)

/-- Settles O54. -/
theorem qmatchHitReturnsTheCachedIndex : Obligations.QmatchHitReturnsTheCachedIndex := by
  intro s i hnone hcell
  obtain ⟨f, hpage, -⟩ := checkPage_of_pageFault_none hnone
  rw [exec_qmatch_of_hit hpage hcell, BitVec.ofNat_toNat]

/-- Settles O55: the index is what steps 2 and 3 find on the active page. -/
theorem qmatchMissResolvesAndCaches : Obligations.QmatchMissResolvesAndCaches := by
  intro s hnone px ps colour hcell
  obtain ⟨f, hpage, hsize⟩ := checkPage_of_pageFault_none hnone
  have hps : ps = f.pageSize := hsize
  have hcolour : ∀ i, colour i = s.pageEntry f s.page.toNat i := fun i => by
    rw [State.pageEntry, ← hps]
    rfl
  simp only [hps, hcolour]
  refine ⟨_, _, exec_qmatch_of_miss hpage hcell, resolve_lt s f _ _, rfl, ?filled, ?others,
    resolve_of_transparent s f _, fun ha j hj => resolve_of_visible s f _ ha hj⟩
  case filled => exact (cacheCell_fillCache s _ _ _).trans (if_pos rfl)
  case others => exact fun k hk => (cacheCell_fillCache s _ _ _).trans (if_neg hk)

/-- Settles O56: the first `QMATCH` leaves the key cached, so the second one is a hit. -/
theorem qmatchAgainWithTheSameKeyHits : Obligations.QmatchAgainWithTheSameKeyHits := by
  intro s v hnone hkey
  obtain ⟨f, hpage, -⟩ := checkPage_of_pageFault_none hnone
  obtain ⟨m, i, hexec, hcell, hres, hpage'⟩ := exec_qmatch_caches hpage
  have hpage'' : State.checkPage { m with opa := v } = .ok f :=
    (checkPage_congr rfl rfl rfl).trans hpage'
  have hhit : (0x100 : Word).getLsbD 8 = true := by decide
  have herr : (0x100 : Word).extractLsb' 0 8 = 0 := by decide
  exact ⟨m, _, hexec, exec_qmatch_of_hit hpage'' (hkey ▸ hcell), hhit, herr, hres.symm, rfl, rfl⟩

end Sys2Proof.Machine
end

section
/-!
PROOFS. What a command writes, over every command (10_state R23, R57; 20_memory R80): its completed effects, one
per way a command can end without a fault, and the registers and arrays each of them leaves.
-/

namespace Sys2Proof.Machine

open Sys2Proof.Safety

/-! ## The effects of a command -/

/-- The key under which `QMATCH` looks up its operand (43_quantizer R221). -/
def State.operandKey (s : State) : Color16 := encode16 (RGBA.ofWord s.opa)

/-- `Effect i s u hit`: command `i`, run in `s` without a fault, has written `u` before its last write, which
puts the completed status with `HIT` = `hit` in `STATUS`. Each command keeps of its checks what bounds its
writes. -/
inductive Effect : Instr → State → State → Bool → Prop where
  | nop {s : State} : Effect .nop s s false
  | result {i : Instr} {s : State} (hi : i ∈ [Instr.dec16, .enc16, .split, .pagerd]) (v : Word) :
      Effect i s (s.setRes v) false
  | clutld {s : State} (entries : List Color16) (hlength : entries.length = s.clutn.toNat)
      (hmax : entries.length ≤ s.params.clutMax) :
      Effect .clutld s (s.loadClut entries).clearCache false
  | clutst {s : State} (bytes : List Byte)
      (hroom : s.bufAdmitted s.dst.toNat bytes.length = true) :
      Effect .clutst s (s.writeBuf s.dst.toNat bytes) false
  | parse {s : State} (mode : Nat) (clut : ClutBlock) (psize : Nat) (rect : Rect)
      (width pixoff : Nat) (hmode : mode < 2 ^ 4) (hlength : clut.entries.length < 2 ^ 32)
      (hmax : clut.entries.length ≤ s.params.clutMax) (hwidth : width < 2 ^ 18) :
      Effect .parse s (s.commitParse mode clut psize rect width pixoff) false
  | geom {s : State} (width : Nat) (hwidth : width < 2 ^ 18) :
      Effect .geom s (s.setTrueWidth width) false
  | unpack {s : State} (pixels : List Word) (w h : Nat)
      (hroom : s.imgAdmitted s.imgbase.toNat pixels.length = true) :
      Effect .unpack s ((s.writeImg s.imgbase.toNat pixels).setImageSize w h) false
  | pack {s : State} (bytes : List Byte)
      (hroom : s.bufAdmitted s.dst.toNat bytes.length = true) :
      Effect .pack s (s.writeBuf s.dst.toNat bytes).clearCache false
  | qclr {s : State} : Effect .qclr s s.clearCache false
  | qmatchHit {s : State} (i : Byte) (hcell : s.cacheCell s.operandKey = some i) :
      Effect .qmatch s (s.setRes (i.setWidth 32)) true
  | qmatchMiss {s : State} (f : IndexedFormat) (hpage : s.checkPage = .ok f)
      (hcell : s.cacheCell s.operandKey = none) (v : Word) :
      Effect .qmatch s
        ((s.fillCache s.operandKey
          (BitVec.ofNat 8 (s.resolve f s.page.toNat (RGBA.ofWord s.opa)))).setRes v) false

/-- The CLUT block a walk gives has at most `CLUT_MAX` entries, and as many as a register can count
(44_structure_and_control R253). -/
theorem clutBlock_entries_bounded {s : State} {hc : Bool} {f : PlaneFormat} {p : Nat} {c : ClutBlock}
    (h : s.clutBlock hc f p = .ok c) :
    c.entries.length < 2 ^ 32 ∧ c.entries.length ≤ s.params.clutMax := by
  rcases clutBlock_eq_ok.1 h with ⟨-, rfl⟩ | ⟨-, -, -, hmax, -, -, rfl⟩
  · simp [noClut]
  · have hsize := bufRead_lt s p 4
    rw [bufEntries_length]
    omega

theorem parse_effect {s t : State} (h : parse s = .ok t) :
    ∃ u, Effect .parse s u false ∧ t = complete u := by
  obtain ⟨f, c, -, -, -, -, hclut, -, -, rfl⟩ := parse_eq_ok.1 h
  obtain ⟨hlength, hmax⟩ := clutBlock_entries_bounded hclut
  exact ⟨_, .parse _ _ _ _ _ _ (Nat.mod_lt _ (by decide)) hlength hmax
    (correctWidth_lt f (bufRead_lt s _ 2)), rfl⟩

theorem qmatch_effect {s t : State} (h : qmatch s = .ok t) :
    ∃ u hit, Effect .qmatch s u hit ∧ t = u.setStatus (statusCompleted hit) := by
  obtain ⟨f, hpage, rfl⟩ := qmatch_eq_ok.1 h
  rcases quantize_cases f s.page.toNat s (RGBA.ofWord s.opa) with ⟨i, hcell, hq⟩ | ⟨hcell, hq⟩
  · rw [hq]
    exact ⟨_, _, .qmatchHit i hcell, rfl⟩
  · rw [hq]
    exact ⟨_, _, .qmatchMiss f hpage hcell _, rfl⟩

/-- Everything a command can do: take one of ten faults with no other effect, or have its effect and
complete. -/
theorem exec_effect {i : Instr} {s t : State} (h : exec i s = .next t) :
    (∃ e, e ≠ ErrorKind.illegalCommand ∧ t = takeFault e s) ∨
      ∃ u hit, Effect i s u hit ∧ t = u.setStatus (statusCompleted hit) := by
  rcases exec_cases h with hfault | ⟨rfl, rfl⟩ | ⟨hi, v, rfl⟩ | ⟨rfl, hclutld⟩ | ⟨rfl, hclutst⟩ |
    ⟨rfl, hparse⟩ | ⟨rfl, hgeom⟩ | ⟨rfl, hunpack⟩ | ⟨rfl, hpack⟩ | ⟨rfl, rfl⟩ | ⟨rfl, hqmatch⟩
  · exact .inl hfault
  · exact .inr ⟨_, _, .nop, rfl⟩
  · exact .inr ⟨_, _, .result hi v, rfl⟩
  · obtain ⟨hmax, -, rfl⟩ := clutld_eq_ok.1 hclutld
    exact .inr ⟨_, _, .clutld _ (bufEntries_length _ _ _) (by rwa [bufEntries_length]), rfl⟩
  · obtain ⟨hroom, rfl⟩ := clutst_eq_ok.1 hclutst
    exact .inr ⟨_, _, .clutst _ (by rwa [entryBytes_length, clutEntries_length]), rfl⟩
  · obtain ⟨u, hu, rfl⟩ := parse_effect hparse
    exact .inr ⟨u, _, hu, rfl⟩
  · obtain ⟨f, -, rfl⟩ := geom_eq_ok.1 hgeom
    exact .inr ⟨_, _, .geom _ (correctWidth_lt f (storedWidth_lt s)), rfl⟩
  · obtain ⟨f, -, -, -, -, hroom, rfl⟩ := unpack_eq_ok.1 hunpack
    exact .inr ⟨_, _, .unpack _ _ _ (by rwa [planeImage_length]), rfl⟩
  · obtain ⟨f, -, -, -, -, -, hroom, rfl⟩ := pack_eq_ok.1 hpack
    exact .inr ⟨_, _, .pack _ (by rwa [encodeImage_length]), rfl⟩
  · exact .inr ⟨_, _, .qclr, rfl⟩
  · exact .inr (qmatch_effect hqmatch)

/-! ## `STATUS` -/

theorem statusHit_statusCompleted (s : State) (hit : Bool) :
    (s.setStatus (statusCompleted hit)).statusHit = hit := by
  rw [State.statusHit, setStatus_status]
  cases hit <;> decide

theorem statusFaulted_toNat (e : ErrorKind) : (statusFaulted e).toNat = e.code := by
  cases e <;> rfl

theorem statusErr_takeFault_ne_zero (e : ErrorKind) (s : State) : (takeFault e s).statusErr ≠ 0 := by
  intro hzero
  have hcode := statusErr_takeFault e s
  rw [hzero] at hcode
  exact absurd hcode (Nat.ne_of_lt (code_pos e).1)

/-- Only a `QMATCH` whose key was cached reports a hit, and each of them does. -/
theorem effect_hit_iff {i : Instr} {s u : State} {hit : Bool} (h : Effect i s u hit) :
    hit = true ↔ i = .qmatch ∧ s.cacheCell s.operandKey ≠ none := by
  cases h with
  | qmatchHit j hcell => simp [hcell]
  | qmatchMiss f hpage hcell v => simp [hcell]
  | result hi v =>
    have hne : i ≠ .qmatch := by
      rintro rfl
      simp at hi
    simp [hne]
  | _ => simp

/-! ## Registers -/

section ReadReg

variable {r : RegName} (hview : isView r = false) (s : State)
include hview

theorem readReg_setStatus (hr : r ≠ .status) (v : Word) :
    (s.setStatus v).readReg r = s.readReg r := by
  cases r with
  | status => exact absurd rfl hr
  | pagecnt | ptrans | truebytesLo | truebytesHi => cases hview
  | _ => rfl

theorem readReg_setRes (hr : r ≠ .res) (v : Word) : (s.setRes v).readReg r = s.readReg r := by
  cases r with
  | res => exact absurd rfl hr
  | pagecnt | ptrans | truebytesLo | truebytesHi => cases hview
  | _ => rfl

theorem readReg_setTrueWidth (hr : r ≠ .truew) (w : Nat) :
    (s.setTrueWidth w).readReg r = s.readReg r := by
  cases r with
  | truew => exact absurd rfl hr
  | pagecnt | ptrans | truebytesLo | truebytesHi => cases hview
  | _ => rfl

theorem readReg_setImageSize (hw : r ≠ .imgw) (hh : r ≠ .imgh) (w h : Nat) :
    (s.setImageSize w h).readReg r = s.readReg r := by
  cases r with
  | imgw => exact absurd rfl hw
  | imgh => exact absurd rfl hh
  | pagecnt | ptrans | truebytesLo | truebytesHi => cases hview
  | _ => rfl

theorem readReg_writeBuf (a : Nat) (bs : List Byte) :
    (s.writeBuf a bs).readReg r = s.readReg r := by
  cases r with
  | pagecnt | ptrans | truebytesLo | truebytesHi => cases hview
  | _ => rfl

theorem readReg_writeImg (i : Nat) (ps : List Word) :
    (s.writeImg i ps).readReg r = s.readReg r := by
  cases r with
  | pagecnt | ptrans | truebytesLo | truebytesHi => cases hview
  | _ => rfl

theorem readReg_loadClut (hr : r ≠ .clen) (es : List Color16) :
    (s.loadClut es).readReg r = s.readReg r := by
  cases r with
  | clen => exact absurd rfl hr
  | pagecnt | ptrans | truebytesLo | truebytesHi => cases hview
  | _ => rfl

theorem readReg_clearCache (hr : r ≠ .qcnt) : s.clearCache.readReg r = s.readReg r := by
  cases r with
  | qcnt => exact absurd rfl hr
  | pagecnt | ptrans | truebytesLo | truebytesHi => cases hview
  | _ => rfl

theorem readReg_fillCache (hr : r ≠ .qcnt) (k : Color16) (i : Byte) :
    (s.fillCache k i).readReg r = s.readReg r := by
  cases r with
  | qcnt => exact absurd rfl hr
  | pagecnt | ptrans | truebytesLo | truebytesHi => cases hview
  | _ => rfl

/-- `PARSE` commits to the registers whose row of the map names it (10_state R57). -/
theorem readReg_commitParse (hr : Instr.parse ∉ writers r) (m : Nat) (c : ClutBlock) (z : Nat)
    (rect : Rect) (w o : Nat) : (s.commitParse m c z rect w o).readReg r = s.readReg r := by
  cases r with
  | mode | paloff | clutn | clutrectXY | clutrectWH | pixrectXY | pixrectWH | clutsize | pixsize
  | pixoff | clen | truew | qcnt => exact absurd (by decide) hr
  | pagecnt | ptrans | truebytesLo | truebytesHi => cases hview
  | _ => rfl

end ReadReg

/-- A register that command `i` does not write is none that it writes. -/
theorem ne_of_writer {i : Instr} {r q : RegName} (hr : i ∉ writers r) (hq : i ∈ writers q) :
    r ≠ q := by
  rintro rfl
  exact hr hq

/-- An effect leaves every stored register whose row does not name the command. -/
theorem effect_readReg {i : Instr} {s u : State} {hit : Bool} (h : Effect i s u hit) {r : RegName}
    (hview : isView r = false) (hr : i ∉ writers r) : u.readReg r = s.readReg r := by
  cases h with
  | nop => rfl
  | result hi v =>
    have hres : i ∈ writers .res := by
      simp only [List.mem_cons, List.not_mem_nil, or_false] at hi
      rcases hi with rfl | rfl | rfl | rfl <;> decide
    exact readReg_setRes hview s (ne_of_writer hr hres) v
  | clutld es _ _ =>
    rw [readReg_clearCache hview _ (ne_of_writer hr (by decide)),
      readReg_loadClut hview s (ne_of_writer hr (by decide))]
  | clutst bs _ => exact readReg_writeBuf hview s _ bs
  | parse m c z rect w o _ _ _ _ => exact readReg_commitParse hview s hr m c z rect w o
  | geom w _ => exact readReg_setTrueWidth hview s (ne_of_writer hr (by decide)) w
  | unpack ps w h _ =>
    rw [readReg_setImageSize hview _ (ne_of_writer hr (by decide)) (ne_of_writer hr (by decide)),
      readReg_writeImg hview]
  | pack bs _ =>
    rw [readReg_clearCache hview _ (ne_of_writer hr (by decide)), readReg_writeBuf hview]
  | qclr => exact readReg_clearCache hview s (ne_of_writer hr (by decide))
  | qmatchHit j _ => exact readReg_setRes hview s (ne_of_writer hr (by decide)) _
  | qmatchMiss f _ _ v =>
    rw [readReg_setRes hview _ (ne_of_writer hr (by decide)),
      readReg_fillCache hview s (ne_of_writer hr (by decide))]

/-! ## The host's side and the arrays -/

theorem effect_host {i : Instr} {s u : State} {hit : Bool} (h : Effect i s u hit) :
    u.params = s.params ∧ u.pending = s.pending ∧ u.replies = s.replies ∧ u.epoch = s.epoch := by
  cases h <;> simp

theorem effect_buf {i : Instr} {s u : State} {hit : Bool} (h : Effect i s u hit)
    (hi : i ∉ [Instr.pack, .clutst]) : u.buf = s.buf := by
  cases h with
  | pack | clutst => simp at hi
  | _ => simp

theorem effect_img {i : Instr} {s u : State} {hit : Bool} (h : Effect i s u hit)
    (hi : i ≠ .unpack) : u.img = s.img := by
  cases h with
  | unpack => exact absurd rfl hi
  | _ => simp

theorem effect_clut {i : Instr} {s u : State} {hit : Bool} (h : Effect i s u hit)
    (hi : i ∉ [Instr.parse, .clutld]) : u.clut = s.clut ∧ u.clen = s.clen := by
  cases h with
  | parse | clutld => simp at hi
  | _ => simp

theorem effect_cache {i : Instr} {s u : State} {hit : Bool} (h : Effect i s u hit)
    (hi : i ∉ [Instr.qclr, .qmatch, .pack, .parse, .clutld]) :
    u.cache = s.cache ∧ u.qcnt = s.qcnt := by
  cases h with
  | qclr | qmatchHit | qmatchMiss | pack | parse | clutld => simp at hi
  | _ => simp

theorem bufByte_congr {s t : State} (hbuf : t.buf = s.buf) (hepoch : t.epoch = s.epoch) (a : Nat) :
    t.bufByte a = s.bufByte a := by
  rw [State.bufByte, State.bufByte, hbuf, hepoch]

theorem imgCell_congr {s t : State} (himg : t.img = s.img) (hepoch : t.epoch = s.epoch) (i : Nat) :
    t.imgCell i = s.imgCell i := by
  rw [State.imgCell, State.imgCell, himg, hepoch]

/-! ## The statements -/

/-- Settles O16: a fault leaves `HIT` 0 and an error code, an effect leaves its own `HIT` and no code. -/
theorem hitFlagOnlyFromAQmatchHit : Obligations.HitFlagOnlyFromAQmatchHit := by
  intro i s t hexec
  rcases exec_effect hexec with ⟨e, he, rfl⟩ | ⟨u, hit, heffect, rfl⟩
  · refine ⟨iff_of_false (by simp [statusHit_takeFault]) fun ⟨_, herr, _⟩ =>
      statusErr_takeFault_ne_zero e s herr, .inr ?_⟩
    change (statusFaulted e).toNat ≤ 10
    rw [statusFaulted_toNat]
    exact code_le_ten he
  · refine ⟨?_, ?_⟩
    · rw [statusHit_statusCompleted, statusErr_statusCompleted, effect_hit_iff heffect]
      simp [State.operandKey]
    · rw [setStatus_status]
      cases hit with
      | true => exact .inl rfl
      | false => exact .inr (Nat.zero_le _)

/-- Settles O17. -/
theorem commandsWriteOnlyTheListedRegisters : Obligations.CommandsWriteOnlyTheListedRegisters := by
  intro i s t hexec
  rcases exec_effect hexec with ⟨e, -, rfl⟩ | ⟨u, hit, heffect, rfl⟩
  · exact ⟨fun r hview hstatus _ => readReg_setStatus hview s hstatus _, rfl, rfl, rfl, rfl⟩
  · refine ⟨fun r hview hstatus hr => ?_, by simpa using effect_host heffect⟩
    rw [readReg_setStatus hview u hstatus, effect_readReg heffect hview hr]

/-- Settles O18. -/
theorem commandsWriteOnlyTheListedMemories : Obligations.CommandsWriteOnlyTheListedMemories := by
  intro i s t hexec
  rcases exec_effect hexec with ⟨e, -, rfl⟩ | ⟨u, hit, heffect, rfl⟩
  · exact ⟨fun _ => ⟨rfl, fun _ => rfl⟩, fun _ => ⟨rfl, fun _ => rfl⟩, fun _ => ⟨rfl, rfl⟩,
      fun _ => ⟨rfl, rfl⟩⟩
  · obtain ⟨-, -, -, hepoch⟩ := effect_host heffect
    refine ⟨fun hi => ?_, fun hi => ?_, fun hi => by simpa using effect_clut heffect hi,
      fun hi => by simpa using effect_cache heffect hi⟩
    · have hbuf := effect_buf heffect hi
      exact ⟨hbuf, bufByte_congr hbuf hepoch⟩
    · have himg := effect_img heffect hi
      exact ⟨himg, imgCell_congr himg hepoch⟩

end Sys2Proof.Machine
end

section
/-!
PROOFS. The invariants every step keeps (10_state R25, R34, R46, R51 to R54; 30_encoding R113; 43_quantizer
R229). An invariant that the parts of a step keep one by one is kept by every step; each invariant is then a
case per part.
-/

namespace Sys2Proof.Machine

open Sys2Proof.Safety

/-! ## From the parts of a step to the step -/

/-- What keeps `P`: each write a step is made of (44_structure_and_control R250, 20_memory R83). -/
structure KeptByParts (P : State → Prop) : Prop where
  status : ∀ s v, P s → P (s.setStatus v)
  effect : ∀ {i s u hit}, Effect i s u hit → P s → P u
  pending : ∀ s rest, P s → P (s.withPending rest)
  store : ∀ s r v, P s → P (s.storeReg r v)
  reply : ∀ s r, P s → P (s.addReply r)
  writeBuf : ∀ {s a bs}, s.bufAdmitted a bs.length = true → P s → P (s.writeBuf a bs)
  writeImg : ∀ {s i ps}, s.imgAdmitted i ps.length = true → P s → P (s.writeImg i ps)
  reset : ∀ s, P s → P (resetEvent s)

theorem KeptByParts.exec {P : State → Prop} (hP : KeptByParts P) {i : Instr} {s t : State}
    (h : exec i s = .next t) (hs : P s) : P t := by
  rcases exec_effect h with ⟨e, -, rfl⟩ | ⟨u, hit, heffect, rfl⟩
  · exact hP.status s _ hs
  · exact hP.status u _ (hP.effect heffect hs)

theorem KeptByParts.step {P : State → Prop} (hP : KeptByParts P) {s t : State}
    (h : step s = .next t) (hs : P s) : P t := by
  rcases step_cases h with ⟨-, rfl⟩ | ⟨u, ⟨rest, rfl⟩, hcases⟩
  · exact hs
  · have hu := hP.pending s rest hs
    rcases hcases with ⟨w, i, hexec⟩ | ⟨w, rfl⟩ | ⟨r, v, -, rfl⟩ | rfl | ⟨r, rfl⟩ |
      ⟨a, bs, hroom, rfl⟩ | ⟨i, ps, hroom, rfl⟩ | rfl
    · exact hP.exec hexec (hP.store _ _ _ hu)
    · exact hP.status _ _ (hP.store _ _ _ hu)
    · exact hP.store _ _ _ hu
    · exact hu
    · exact hP.reply _ _ hu
    · exact hP.writeBuf hroom hu
    · exact hP.writeImg hroom hu
    · exact hP.reset _ hu

/-! ## The sizes -/

theorem params_kept (p : Params) : KeptByParts (fun s => s.params = p) where
  status _ _ hs := hs
  effect heffect hs := (effect_host heffect).1.trans hs
  pending _ _ hs := hs
  store s r v hs := (storeReg_params s r v).trans hs
  reply _ _ hs := hs
  writeBuf _ hs := hs
  writeImg _ hs := hs
  reset _ hs := hs

/-! ## Reserved bits and `STATUS` (30_encoding R113, 10_state R25) -/

/-- A mask of the low `k` bits leaves a value below `2 ^ k`. -/
theorem and_lowMask_lt (v : Word) {m : Word} {k : Nat} (hm : m.toNat < 2 ^ k) :
    (v &&& m).toNat < 2 ^ k := by
  rw [BitVec.toNat_and]
  exact Nat.and_lt_two_pow _ hm

theorem reservedBitsZero_effect {i : Instr} {s u : State} {hit : Bool} (h : Effect i s u hit)
    (hs : ReservedBitsZero s) : ReservedBitsZero u := by
  have ⟨hctrl, hmode, _⟩ := hs
  cases h with
  | parse mode clut psize rect width pixoff hbits _ _ hwidth =>
    simp only [ReservedBitsZero, commitParse_ctrl, commitParse_mode, commitParse_truew,
      BitVec.toNat_ofNat]
    exact ⟨hctrl, by omega, by omega⟩
  | geom width hwidth =>
    simp only [ReservedBitsZero, setTrueWidth_ctrl, setTrueWidth_mode, setTrueWidth_truew,
      BitVec.toNat_ofNat]
    exact ⟨hctrl, hmode, by omega⟩
  | _ => simpa [ReservedBitsZero] using hs

theorem reservedBitsZero_storeReg {s : State} (r : RegName) (v : Word)
    (hs : ReservedBitsZero s) : ReservedBitsZero (s.storeReg r v) := by
  obtain ⟨hctrl, hmode, htruew⟩ := hs
  cases r with
  | ctrl => exact ⟨and_lowMask_lt (k := 1) v (by decide), hmode, htruew⟩
  | mode => exact ⟨hctrl, and_lowMask_lt (k := 4) v (by decide), htruew⟩
  | truew => exact ⟨hctrl, hmode, and_lowMask_lt (k := 18) v (by decide)⟩
  | _ => exact ⟨hctrl, hmode, htruew⟩

theorem reservedBitsZero_kept : KeptByParts ReservedBitsZero where
  status _ _ hs := hs
  effect := reservedBitsZero_effect
  pending _ _ hs := hs
  store _ r v hs := reservedBitsZero_storeReg r v hs
  reply _ _ hs := hs
  writeBuf _ hs := hs
  writeImg _ hs := hs
  reset _ _ := by simp [ReservedBitsZero, resetEvent, State.resetWith]

theorem statusLegal_exec {i : Instr} {s t : State} (h : exec i s = .next t) : StatusLegal t := by
  rcases (hitFlagOnlyFromAQmatchHit i s t h).2 with hhit | hcode
  · exact .inr (congrArg BitVec.toNat hhit)
  · exact .inl (by omega)

/-- The host cannot write `STATUS` (10_state R25). -/
theorem storeReg_status (s : State) (r : RegName) (v : Word) :
    (s.storeReg r v).status = s.status := by
  cases r <;> rfl

theorem statusLegal_step {s t : State} (h : step s = .next t) (hs : StatusLegal s) :
    StatusLegal t := by
  rcases step_cases h with ⟨-, rfl⟩ | ⟨u, ⟨rest, rfl⟩, hcases⟩
  · exact hs
  · rcases hcases with ⟨w, i, hexec⟩ | ⟨w, rfl⟩ | ⟨r, v, -, rfl⟩ | rfl | ⟨r, rfl⟩ |
      ⟨a, bs, -, rfl⟩ | ⟨i, ps, -, rfl⟩ | rfl
    · exact statusLegal_exec hexec
    · exact .inl (Nat.le_refl 11)
    · rw [StatusLegal, storeReg_status]
      exact hs
    · exact hs
    · exact hs
    · exact hs
    · exact hs
    · exact .inl (Nat.zero_le _)

/-! ## The CLUT RAM (10_state R34, R53) -/

/-- A load counts its entries in `CLEN` (10_state R34). -/
theorem clutCounted_of_loaded {s : State} (hclen : s.clen = BitVec.ofNat 32 s.clut.length)
    (hfits : s.clut.length < 2 ^ 32) (hmax : s.clut.length ≤ s.params.clutMax) : ClutCounted s := by
  have hcount : s.clen.toNat = s.clut.length := by
    rw [hclen, BitVec.toNat_ofNat]
    exact Nat.mod_eq_of_lt hfits
  exact ⟨hcount.symm, hcount.le.trans hmax⟩

theorem clutCounted_effect {i : Instr} {s u : State} {hit : Bool} (h : Effect i s u hit)
    (hs : ClutCounted s) : ClutCounted u := by
  cases h with
  | clutld entries hlength hmax =>
    exact clutCounted_of_loaded rfl (hlength ▸ s.clutn.isLt) hmax
  | parse mode clut psize rect width pixoff _ hfits hmax _ =>
    exact clutCounted_of_loaded rfl hfits hmax
  | _ => simpa [ClutCounted] using hs

theorem clutCounted_kept : KeptByParts ClutCounted where
  status _ _ hs := hs
  effect := clutCounted_effect
  pending _ _ hs := hs
  store _ _ _ hs := by simpa [ClutCounted] using hs
  reply _ _ hs := hs
  writeBuf _ hs := hs
  writeImg _ hs := hs
  reset _ _ := by simp [ClutCounted, resetEvent, State.resetWith]

/-! ## The cache as a list of cells (10_state R46, R54) -/

theorem cacheCounted_of_cleared {s : State} (hcache : s.cache = []) (hqcnt : s.qcnt = 0) :
    CacheCounted s := by
  simp [CacheCounted, hcache, hqcnt]

theorem cacheCounted_congr {s t : State} (hcache : t.cache = s.cache) (hqcnt : t.qcnt = s.qcnt)
    (hs : CacheCounted s) : CacheCounted t := by
  rwa [CacheCounted, hcache, hqcnt]

/-- A filled cell is one cell more, and 16-bit keys are too few for `QCNT` to wrap (43_quantizer R229). -/
theorem cacheCounted_fillCache {s : State} {k : Color16} (hcell : s.cacheCell k = none) (i : Byte)
    (hs : CacheCounted s) : CacheCounted (s.fillCache k i) := by
  obtain ⟨hwf, hkeys, hcount⟩ := hs
  have hbound := length_le_of_wf hwf hkeys
  refine ⟨store_wf hwf _ _, fun e he => ?_, ?_⟩
  · rcases mem_of_mem_store he with rfl | he
    · exact k.isLt
    · exact hkeys e he
  · rw [fillCache_cache, length_store_of_empty i hcell, fillCache_qcnt, hcount, BitVec.toNat_add]
    exact (Nat.mod_eq_of_lt (by omega)).symm

theorem cacheCounted_effect {i : Instr} {s u : State} {hit : Bool} (h : Effect i s u hit)
    (hs : CacheCounted s) : CacheCounted u := by
  cases h with
  | clutld | parse | pack | qclr => exact cacheCounted_of_cleared rfl rfl
  | qmatchMiss f _ hcell v => exact cacheCounted_congr rfl rfl (cacheCounted_fillCache hcell _ hs)
  | _ => exact cacheCounted_congr rfl rfl hs

theorem cacheCounted_storeReg {s : State} (r : RegName) (v : Word) (hs : CacheCounted s) :
    CacheCounted (s.storeReg r v) := by
  cases hr : clearsCache r with
  | true =>
    obtain ⟨hcache, hqcnt⟩ := storeReg_clears hr s v
    exact cacheCounted_of_cleared hcache hqcnt
  | false =>
    obtain ⟨hcache, hqcnt⟩ := storeReg_keepsCache hr s v
    exact cacheCounted_congr hcache hqcnt hs

theorem cacheCounted_kept : KeptByParts CacheCounted where
  status _ _ hs := hs
  effect := cacheCounted_effect
  pending _ _ hs := hs
  store _ r v hs := cacheCounted_storeReg r v hs
  reply _ _ hs := hs
  writeBuf _ hs := hs
  writeImg _ hs := hs
  reset _ _ := cacheCounted_of_cleared rfl rfl

/-! ## The cached indices (43_quantizer R229) -/

theorem cacheSound_of_cleared {s : State} (hcache : s.cache = []) : CacheSound s := by
  intro k i hcell
  rw [cacheCell_of_cache_nil hcache] at hcell
  cases hcell

/-- Soundness reads the cache, `CTRL`, `MODE`, `PAGE` and the CLUT, and nothing else. -/
theorem cacheSound_congr {s t : State} (hcache : t.cache = s.cache) (hctrl : t.ctrl = s.ctrl)
    (hmode : t.mode = s.mode) (hpage : t.page = s.page) (hclen : t.clen = s.clen)
    (hclut : t.clut = s.clut) (hs : CacheSound s) : CacheSound t := by
  intro k i hcell
  rw [State.cacheCell, hcache] at hcell
  obtain ⟨f, px, hformat, hwhole, hexists, hkey, hindex, hlt⟩ := hs k i hcell
  obtain ⟨hformat', hwhole', hexists'⟩ := checkPage_eq_ok.1
    ((checkPage_congr hmode hclen hpage).trans (checkPage_eq_ok.2 ⟨hformat, hwhole, hexists⟩))
  have hresolve : t.resolve f t.page.toNat px = s.resolve f s.page.toNat px :=
    resolve_congr (fun j _ => by
      simp only [State.pageEntry, State.clutEntry, State.te, hclut, hctrl, hpage]) px
  exact ⟨f, px, hformat', hwhole', hexists', hkey, hindex.trans hresolve.symm, hlt⟩

/-- A miss caches what steps 2 and 3 give for the pixel at hand, and leaves the other cells. -/
theorem cacheSound_fillCache {s : State} {f : IndexedFormat} (hpage : s.checkPage = .ok f)
    (px : RGBA) (hs : CacheSound s) :
    CacheSound (s.fillCache (encode16 px) (BitVec.ofNat 8 (s.resolve f s.page.toNat px))) := by
  intro k i hcell
  simp only [fillCache_format, fillCache_wholePages, fillCache_pageCount, fillCache_page,
    fillCache_resolve]
  rw [cacheCell_fillCache] at hcell
  split_ifs at hcell with hkey
  · obtain ⟨hformat, hwhole, hexists⟩ := checkPage_eq_ok.1 hpage
    have hlt := resolve_lt s f s.page.toNat px
    have hindex : i.toNat = s.resolve f s.page.toNat px := by
      rw [← Option.some.inj hcell, BitVec.toNat_ofNat]
      exact Nat.mod_eq_of_lt (Nat.lt_of_lt_of_le hlt (pageSize_pos f).2)
    exact ⟨f, px, hformat, hwhole, hexists, hkey.symm, hindex, hindex ▸ hlt⟩
  · exact hs k i hcell

theorem cacheSound_effect {i : Instr} {s u : State} {hit : Bool} (h : Effect i s u hit)
    (hs : CacheSound s) : CacheSound u := by
  cases h with
  | clutld | parse | pack | qclr => exact cacheSound_of_cleared rfl
  | qmatchMiss f hpage _ v =>
    exact cacheSound_congr rfl rfl rfl rfl rfl rfl (cacheSound_fillCache hpage _ hs)
  | _ => exact cacheSound_congr rfl rfl rfl rfl rfl rfl hs

/-- A host write of a register that soundness reads clears the cache (10_state R57, "cc"). -/
theorem cacheSound_storeReg {s : State} (r : RegName) (v : Word) (hs : CacheSound s) :
    CacheSound (s.storeReg r v) := by
  cases r with
  | ctrl | mode | page => exact cacheSound_of_cleared rfl
  | _ => exact cacheSound_congr rfl rfl rfl rfl rfl rfl hs

theorem cacheSound_kept : KeptByParts CacheSound where
  status _ _ hs := cacheSound_congr rfl rfl rfl rfl rfl rfl hs
  effect := cacheSound_effect
  pending _ _ hs := cacheSound_congr rfl rfl rfl rfl rfl rfl hs
  store _ r v hs := cacheSound_storeReg r v hs
  reply _ _ hs := cacheSound_congr rfl rfl rfl rfl rfl rfl hs
  writeBuf _ hs := cacheSound_congr rfl rfl rfl rfl rfl rfl hs
  writeImg _ hs := cacheSound_congr rfl rfl rfl rfl rfl rfl hs
  reset _ _ := cacheSound_of_cleared rfl

/-! ## `BUF` and `IMG` (10_state R51, R52; log entry 9) -/

/-- A run that is empty or inside `n` cells keeps a memory in canonical form and inside them. -/
theorem storeRun_bounded {w n : Nat} {m : Memory w} (hwf : Memory.wf m) (hm : ∀ e ∈ m, e.1 < n)
    {a : Nat} {xs : List (BitVec w)} (hroom : ¬(0 < xs.length ∧ n < a + xs.length)) :
    Memory.wf (Memory.storeRun m a xs) ∧ ∀ e ∈ Memory.storeRun m a xs, e.1 < n := by
  refine ⟨storeRun_wf xs hwf a, fun e he => ?_⟩
  rcases mem_of_mem_storeRun xs he with hrun | hold
  · omega
  · exact hm e hold

theorem memoriesBounded_writeBuf {s : State} {a : Nat} {bs : List Byte}
    (hroom : s.bufAdmitted a bs.length = true) (hs : MemoriesBounded s) :
    MemoriesBounded (s.writeBuf a bs) := by
  obtain ⟨hbuf, hbufSize, himg, himgSize⟩ := hs
  obtain ⟨hbuf', hbufSize'⟩ := storeRun_bounded hbuf hbufSize (bufAdmitted_iff.1 hroom)
  exact ⟨hbuf', hbufSize', himg, himgSize⟩

theorem memoriesBounded_writeImg {s : State} {i : Nat} {ps : List Word}
    (hroom : s.imgAdmitted i ps.length = true) (hs : MemoriesBounded s) :
    MemoriesBounded (s.writeImg i ps) := by
  obtain ⟨hbuf, hbufSize, himg, himgSize⟩ := hs
  obtain ⟨himg', himgSize'⟩ := storeRun_bounded himg himgSize (imgAdmitted_iff.1 hroom)
  exact ⟨hbuf, hbufSize, himg', himgSize'⟩

theorem memoriesBounded_effect {i : Instr} {s u : State} {hit : Bool} (h : Effect i s u hit)
    (hs : MemoriesBounded s) : MemoriesBounded u := by
  cases h with
  | clutst bytes hroom => exact memoriesBounded_writeBuf hroom hs
  | pack bytes hroom => exact memoriesBounded_writeBuf hroom hs
  | unpack pixels w h hroom => exact memoriesBounded_writeImg hroom hs
  | _ => exact hs

theorem memoriesBounded_kept : KeptByParts MemoriesBounded where
  status _ _ hs := hs
  effect := memoriesBounded_effect
  pending _ _ hs := hs
  store s r v hs := by
    rw [MemoriesBounded, storeReg_buf, storeReg_img, storeReg_params]
    exact hs
  reply _ _ hs := hs
  writeBuf := memoriesBounded_writeBuf
  writeImg := memoriesBounded_writeImg
  reset _ _ := by simp [MemoriesBounded, resetEvent, State.resetWith]

/-! ## The statements -/

/-- Settles O20. -/
theorem stepKeepsReservedBitsAndStatus : Obligations.StepKeepsReservedBitsAndStatus :=
  fun _ _ hstep hreserved hstatus =>
    ⟨reservedBitsZero_kept.step hstep hreserved, statusLegal_step hstep hstatus⟩

/-- Settles O21. -/
theorem stepKeepsClutCounted : Obligations.StepKeepsClutCounted :=
  fun _ _ hstep hs => clutCounted_kept.step hstep hs

/-- Settles O22. -/
theorem stepKeepsCacheCounted : Obligations.StepKeepsCacheCounted :=
  fun _ _ hstep hs => cacheCounted_kept.step hstep hs

/-- Settles O23. -/
theorem stepKeepsCacheSound : Obligations.StepKeepsCacheSound :=
  fun _ _ hstep hs => cacheSound_kept.step hstep hs

/-- Settles O24. -/
theorem stepKeepsMemoriesBounded : Obligations.StepKeepsMemoriesBounded :=
  fun s _ hstep hs => ⟨memoriesBounded_kept.step hstep hs, (params_kept s.params).step hstep rfl⟩

end Sys2Proof.Machine
end

section
/-!
PROOFS. The events that empty the cache (43_quantizer R222): what each command and each host action does to a
filled cell.
-/

namespace Sys2Proof.Machine

open Sys2Proof.Safety

/-! ## Commands -/

/-- The commands that empty the cache where they do not fault (43_quantizer R222). -/
def clearingCommands : List Instr := [.qclr, .pack, .clutld, .parse]

theorem result_not_clearing :
    ∀ i ∈ [Instr.dec16, .enc16, .split, .pagerd], i ∉ clearingCommands := by decide

theorem effect_clears {i : Instr} {s u : State} {hit : Bool} (h : Effect i s u hit)
    (hi : i ∈ clearingCommands) : u.cache = [] ∧ u.qcnt = 0 := by
  cases h with
  | qclr | pack | clutld | parse => exact ⟨rfl, rfl⟩
  | result hresult => exact absurd hi (result_not_clearing i hresult)
  | _ => simp [clearingCommands] at hi

/-- Any other command keeps a filled cell: a `QMATCH` fills only a cell that is empty. -/
theorem effect_keepsCell {i : Instr} {s u : State} {hit : Bool} (h : Effect i s u hit)
    (hi : i ∉ clearingCommands) {k : Color16} {v : Byte} (hcell : s.cacheCell k = some v) :
    u.cacheCell k = some v := by
  cases h with
  | qclr | pack | clutld | parse => simp [clearingCommands] at hi
  | qmatchMiss f _ hempty _ =>
    have hne : k ≠ s.operandKey := by
      rintro rfl
      simp [hempty] at hcell
    rw [setRes_cacheCell, cacheCell_fillCache, if_neg hne, hcell]
  | _ => simpa using hcell

theorem exec_clears {i : Instr} {s t : State} (h : exec i s = .next t) (hi : i ∈ clearingCommands)
    (hcompleted : t.statusErr = 0) : t.cache = [] ∧ t.qcnt = 0 := by
  rcases exec_effect h with ⟨e, -, rfl⟩ | ⟨u, hit, heffect, rfl⟩
  · exact absurd hcompleted (statusErr_takeFault_ne_zero e s)
  · have hcleared := effect_clears heffect hi
    exact hcleared

/-- A fault keeps the cache, of whatever command. -/
theorem exec_keepsCell {i : Instr} {s t : State} (h : exec i s = .next t)
    (hi : ¬(i ∈ clearingCommands ∧ t.statusErr = 0)) {k : Color16} {v : Byte}
    (hcell : s.cacheCell k = some v) : t.cacheCell k = some v := by
  rcases exec_effect h with ⟨e, -, rfl⟩ | ⟨u, hit, heffect, rfl⟩
  · exact hcell
  · rw [statusErr_statusCompleted] at hi
    rw [setStatus_cacheCell]
    exact effect_keepsCell heffect (fun hclear => hi ⟨hclear, rfl⟩) hcell

/-! ## Host actions -/

theorem offset_of_ofOffset {o : Nat} {r : RegName} (h : RegName.ofOffset o = some r) :
    r.offset = o := by
  simpa using List.find?_some h

/-- What a register write can do: issue a command word, store a register, or nothing. -/
theorem hostAct_writeReg_cases {o : Nat} {v : Word} {s t : State}
    (h : hostAct (.writeReg o v) s = .next t) :
    (o = RegName.offset .cmd ∧ issue v s = .next t) ∨
      (∃ r : RegName, o = r.offset ∧ t = s.storeReg r v) ∨ t = s := by
  simp only [hostAct, atRegister, hostWriteReg] at h
  split_ifs at h
  split at h
  case h_1 hr => exact .inl ⟨(offset_of_ofOffset hr).symm, h⟩
  case h_2 r _ hr =>
    injection h with h
    exact .inr (.inl ⟨r, (offset_of_ofOffset hr).symm, h.symm⟩)
  case h_3 =>
    injection h with h
    exact .inr (.inr h.symm)

/-- Reads and memory writes are no business of the cache (20_memory R81). -/
theorem hostAct_cache {a : HostAction} {s t : State} (h : hostAct a s = .next t)
    (hwrite : ∀ o v, a ≠ .writeReg o v) (hreset : a ≠ .reset) : t.cache = s.cache := by
  cases a with
  | writeReg o v => exact absurd rfl (hwrite o v)
  | reset => exact absurd rfl hreset
  | readReg o =>
    simp only [hostAct, atRegister] at h
    split_ifs at h
    cases h
    rfl
  | writeBuf | readBuf | writeImg | readImg =>
    simp only [hostAct] at h
    split_ifs at h
    cases h
    rfl

theorem cacheCell_congr {s t : State} (hcache : t.cache = s.cache) (k : Color16) :
    t.cacheCell k = s.cacheCell k := by
  rw [State.cacheCell, State.cacheCell, hcache]

/-- The events of 43_quantizer R222, for a step that performed `a` and gave `t`. -/
def ClearingEvent (a : HostAction) (t : State) : Prop :=
  a = .reset ∨ (∃ r v, a = .writeReg r.offset v ∧ clearsCache r = true) ∨
    ∃ i, i ∈ clearingCommands ∧ a = .writeReg 0x00 (encode i) ∧ t.statusErr = 0

theorem clearingEvent_clears {s t : State} {a : HostAction} {rest : List HostAction}
    (hpending : s.pending = a :: rest) (hstep : step s = .next t) (h : ClearingEvent a t) :
    t.cache = [] ∧ t.qcnt = 0 := by
  rcases h with rfl | ⟨r, v, rfl, hr⟩ | ⟨i, hi, rfl, hcompleted⟩
  · rw [step_reset hpending] at hstep
    cases hstep
    exact ⟨rfl, rfl⟩
  · have hcmd : r ≠ .cmd := by
      rintro rfl
      cases hr
    rw [step_writeReg hpending hcmd] at hstep
    cases hstep
    exact storeReg_clears hr _ v
  · rw [step_writeCmd hpending, issue_encode] at hstep
    exact exec_clears hstep hi hcompleted

/-- A command word issued by a step that is no clearing event keeps a filled cell. -/
theorem issue_keepsCell {w : Word} {s t : State} (h : issue w s = .next t)
    (hclears : ¬ClearingEvent (.writeReg 0x00 w) t) {k : Color16} {i : Byte}
    (hcell : s.cacheCell k = some i) : t.cacheCell k = some i := by
  unfold issue at h
  split at h
  case h_1 c hdecode =>
    refine exec_keepsCell h (fun ⟨hc, hcompleted⟩ => hclears ?_) hcell
    exact .inr (.inr ⟨c, hc, by rw [eq_encode_of_decode hdecode], hcompleted⟩)
  case h_2 =>
    injection h with h
    subst h
    exact hcell

theorem step_keepsCell {s t : State} {a : HostAction} {rest : List HostAction}
    (hpending : s.pending = a :: rest) (hstep : step s = .next t) (h : ¬ClearingEvent a t)
    {k : Color16} {i : Byte} (hcell : s.cacheCell k = some i) : t.cacheCell k = some i := by
  rw [step, advance_action hpending] at hstep
  cases a with
  | reset => exact absurd (.inl rfl) h
  | writeReg o v =>
    rcases hostAct_writeReg_cases hstep with ⟨rfl, hissue⟩ | ⟨r, rfl, rfl⟩ | rfl
    · exact issue_keepsCell hissue h hcell
    · have hkeeps : clearsCache r = false :=
        Bool.eq_false_iff.2 fun hr => h (.inr (.inl ⟨r, v, rfl, hr⟩))
      exact (cacheCell_congr (storeReg_keepsCache hkeeps (s.withPending rest) v).1 k).trans hcell
    · exact hcell
  | _ => exact (cacheCell_congr (hostAct_cache hstep (by simp) (by simp)) k).trans hcell

/-! ## The statement -/

/-- Settles O25. -/
theorem cacheClearedByExactlyTheListedEvents : Obligations.CacheClearedByExactlyTheListedEvents := by
  intro s t a rest hpending hstep
  refine ⟨fun hclears => ?_, fun hkeeps k i hcell => step_keepsCell hpending hstep hkeeps hcell⟩
  obtain ⟨hcache, hqcnt⟩ := clearingEvent_clears hpending hstep hclears
  exact ⟨cacheCell_of_cache_nil hcache, hqcnt⟩

end Sys2Proof.Machine
end

section
/-!
PROOFS. The state after reset (70_reset_and_hazards R320, R321): what each command does there, and the
invariants it meets.
-/

namespace Sys2Proof.Machine

open Sys2Proof.Safety

/-! ## Checks on an empty stream and an empty CLUT -/

theorem parseFault_resetWith (p : Params) : parseFault (State.resetWith p) = some 5 := by
  simp [parseFault, State.resetWith]

theorem formatNumber_resetWith (p : Params) : formatNumber (State.resetWith p) = 0 := rfl

/-- Every size of page divides an empty CLUT, and no page exists in it. -/
theorem pageFaults_resetWith (p : Params) :
    pagesFault (State.resetWith p) = none ∧ pageFault (State.resetWith p) = some 7 ∧
      unpackFault (State.resetWith p) = some 7 ∧ packFault (State.resetWith p) = some 7 := by
  simp only [pagesFault, pageFault, unpackFault, packFault, formatNumber_resetWith]
  simp [State.resetWith]

/-! ## The statements -/

/-- Settles O14: the commands with checks by the tables of their faults, the others by their own rules. -/
theorem firstCommandAfterReset : Obligations.FirstCommandAfterReset := by
  intro p _ s
  obtain ⟨hpages, hpage, hunpack, hpack⟩ := pageFaults_resetWith p
  refine ⟨exec_nop s, exec_qclr s, ?clutst, ?geom, ?split, ?clutld, ?dec16, ?enc16,
    exec_parse_of_fault (parseFault_resetWith p), exec_unpack_of_fault hunpack,
    exec_pack_of_fault hpack, ?pagerd, qmatchFaultsInCheckOrder s 7 hpage⟩
  case clutst => exact exec_clutst_of_fits (.inl rfl)
  case geom => exact exec_geom_of_plane (format_eq_plane (f := .indexed .indexed4).2 rfl)
  case split =>
    have hcount : s.clen.toNat / pageSizeNumber (formatNumber s) = 0 := Nat.zero_div _
    rw [(splitCountsThePages.2 s).2 hpages, hcount]
    rfl
  case clutld => exact exec_clutld_of_admitted (Nat.zero_le _) rfl
  case dec16 =>
    have hopaqueBlack : (decode16 0x0000 false).word = 0xFF000000 := by decide
    have hcode : s.opaCode = 0x0000 := rfl
    have hte : s.te = false := by simp [State.te, s, State.resetWith]
    rw [exec_dec16, hcode, hte, hopaqueBlack]
    rfl
  case enc16 =>
    have hclearBlack : (encode16 (RGBA.ofWord 0)).setWidth 32 = (0x8000 : Word) := by decide
    have hopa : s.opa = 0 := rfl
    rw [exec_enc16, hopa, hclearBlack]
    rfl
  case pagerd => exact (pagerdReadsTheEntry.2 s).1 7 hpage

/-- Settles O19. -/
theorem resetMeetsTheInvariants : Obligations.ResetMeetsTheInvariants :=
  ⟨by decide, by simp [ReservedBitsZero, State.reset, State.resetWith], .inl (Nat.zero_le _),
    ⟨rfl, Nat.zero_le _⟩, cacheCounted_of_cleared rfl rfl, cacheSound_of_cleared rfl,
    by simp [MemoriesBounded, State.reset, State.resetWith]⟩

end Sys2Proof.Machine
end
